-- ==== Sys2Proof/Word.lean ====
section
/-! DEFINITION. The plain words of the block: bytes, register indices, immediates, scalars, elements.
Rules R6, R20, R21, R42 of the spec. -/

namespace Sys2Proof

/-- One byte of the register-file byte space (R40). -/
abbrev Byte := BitVec 8

/-- The index of an architectural vector register, `v0` to `v31` (R20, R21). -/
abbrev VReg := Fin 32

/-- The 5-bit immediate field `imm5` (R70, R74). -/
abbrev Imm5 := BitVec 5

/-- The scalar on port `RS1` (R28). -/
abbrev Scalar := BitVec 64

/-- The request descriptor `REQ` (R70). -/
abbrev Descriptor := BitVec 64

end Sys2Proof
end

