-- ==== Sys2Proof/Machine/Arith.lean ====
section
/-! DEFINITION. The two readings of a bit pattern and the way back from an integer (R6, R115, R116). -/

namespace Sys2Proof.Machine

/-- `U_W(v)`, the unsigned reading (R6). -/
def U {W : Nat} (v : BitVec W) : Int := (v.toNat : Int)

/-- `S_W(v)`, the two's-complement reading (R6). -/
def S {W : Nat} (v : BitVec W) : Int := v.toInt

/-- `trunc_W(n)`, the pattern congruent to `n` modulo `2^W` (R6). -/
def trunc (W : Nat) (n : Int) : BitVec W := BitVec.ofInt W n

/-- The low `log2(W)` bits of a shift operand, for a shift of a `W`-bit value (R137, R171). -/
def shiftAmount (W : Nat) {V : Nat} (b : BitVec V) : Nat := b.toNat % 2 ^ Nat.log2 W

end Sys2Proof.Machine
end

