-- ==== Sys2Proof/Syntax.lean ====
section
/-! DEFINITION. The vocabulary of requests and responses: fields, operand records, one constructor of `Instr` per row of
the operation map (R70, R80), the validation classes (R102) and the names the spec gives to every way a request ends. -/

namespace Sys2Proof

/-- The element width `SEW` of a request, `8 << vsew` bits (R70, R101). -/
inductive Sew where
  | e8
  | e16
  | e32
  | e64
  deriving DecidableEq, Repr

/-- The rounding modes of field `vxrm`: nearest-up, nearest-even, down, odd (R286). -/
inductive RoundMode where
  | rnu
  | rne
  | rdn
  | rod
  deriving DecidableEq, Repr

/-- The configuration that travels with every request (R70): element width, multiplicity numerator and denominator as
the 4-bit fields hold them (reserved pairs included: the decoder accepts them, R79), rounding mode. -/
structure Cfg where
  sew : Sew
  lmulNum : BitVec 4
  lmulDen : BitVec 4
  vxrm : RoundMode
  deriving DecidableEq, Repr

/-- Operands of a two-source request in form V (R70). -/
structure OpVV where
  me : Bool
  vd : VReg
  vs1 : VReg
  vs2 : VReg
  cfg : Cfg
  deriving DecidableEq, Repr

/-- Operands of a request in form X: the right operand is the scalar port (R70, R78). -/
structure OpVX where
  me : Bool
  vd : VReg
  vs2 : VReg
  cfg : Cfg
  deriving DecidableEq, Repr

/-- Operands of a request in form I: the right operand is the immediate (R70, R74). -/
structure OpVI where
  me : Bool
  vd : VReg
  imm : Imm5
  vs2 : VReg
  cfg : Cfg
  deriving DecidableEq, Repr

/-- Operands of a one-source extension (form V with a zero `vs1` field, R70). -/
structure OpExt where
  me : Bool
  vd : VReg
  vs2 : VReg
  cfg : Cfg
  deriving DecidableEq, Repr

/-- Operands of `vmv.v.v`, which has no `vs2` (R70, R261). -/
structure OpMvV where
  me : Bool
  vd : VReg
  vs1 : VReg
  cfg : Cfg
  deriving DecidableEq, Repr

/-- Operands of `vmv.v.x` (R261). -/
structure OpMvX where
  me : Bool
  vd : VReg
  cfg : Cfg
  deriving DecidableEq, Repr

/-- Operands of `vmv.v.i` (R261). -/
structure OpMvI where
  me : Bool
  vd : VReg
  imm : Imm5
  cfg : Cfg
  deriving DecidableEq, Repr

/-- Operands of a carry or borrow producer in form V; its row fixes the `me` bit (R243, R244). -/
structure OpCV where
  vd : VReg
  vs1 : VReg
  vs2 : VReg
  cfg : Cfg
  deriving DecidableEq, Repr

/-- Operands of a carry or borrow producer in form X (R243, R244). -/
structure OpCX where
  vd : VReg
  vs2 : VReg
  cfg : Cfg
  deriving DecidableEq, Repr

/-- Operands of a carry producer in form I (R243). -/
structure OpCI where
  vd : VReg
  imm : Imm5
  vs2 : VReg
  cfg : Cfg
  deriving DecidableEq, Repr

/-- The instructions: one constructor per row of the operation map (R80). -/
inductive Instr where
  -- Plain integer operations (R131 to R143)
  | vaddVV (o : OpVV)
  | vaddVX (o : OpVX)
  | vaddVI (o : OpVI)
  | vsubVV (o : OpVV)
  | vsubVX (o : OpVX)
  | vrsubVX (o : OpVX)
  | vrsubVI (o : OpVI)
  | vandVV (o : OpVV)
  | vandVX (o : OpVX)
  | vandVI (o : OpVI)
  | vorVV (o : OpVV)
  | vorVX (o : OpVX)
  | vorVI (o : OpVI)
  | vxorVV (o : OpVV)
  | vxorVX (o : OpVX)
  | vxorVI (o : OpVI)
  | vsllVV (o : OpVV)
  | vsllVX (o : OpVX)
  | vsllVI (o : OpVI)
  | vsrlVV (o : OpVV)
  | vsrlVX (o : OpVX)
  | vsrlVI (o : OpVI)
  | vsraVV (o : OpVV)
  | vsraVX (o : OpVX)
  | vsraVI (o : OpVI)
  | vminuVV (o : OpVV)
  | vminuVX (o : OpVX)
  | vminVV (o : OpVV)
  | vminVX (o : OpVX)
  | vmaxuVV (o : OpVV)
  | vmaxuVX (o : OpVX)
  | vmaxVV (o : OpVV)
  | vmaxVX (o : OpVX)
  -- Extension, widening add and subtract, narrowing shifts (R161 to R172)
  | vzextVf2 (o : OpExt)
  | vzextVf4 (o : OpExt)
  | vzextVf8 (o : OpExt)
  | vsextVf2 (o : OpExt)
  | vsextVf4 (o : OpExt)
  | vsextVf8 (o : OpExt)
  | vwadduVV (o : OpVV)
  | vwadduVX (o : OpVX)
  | vwaddVV (o : OpVV)
  | vwaddVX (o : OpVX)
  | vwsubuVV (o : OpVV)
  | vwsubuVX (o : OpVX)
  | vwsubVV (o : OpVV)
  | vwsubVX (o : OpVX)
  | vnsrlWV (o : OpVV)
  | vnsrlWX (o : OpVX)
  | vnsrlWI (o : OpVI)
  | vnsraWV (o : OpVV)
  | vnsraWX (o : OpVX)
  | vnsraWI (o : OpVI)
  -- Comparisons and carry operations (R231 to R244)
  | vmseqVV (o : OpVV)
  | vmseqVX (o : OpVX)
  | vmseqVI (o : OpVI)
  | vmsneVV (o : OpVV)
  | vmsneVX (o : OpVX)
  | vmsneVI (o : OpVI)
  | vmsltuVV (o : OpVV)
  | vmsltuVX (o : OpVX)
  | vmsltuVI (o : OpVI)
  | vmsltVV (o : OpVV)
  | vmsltVX (o : OpVX)
  | vmsltVI (o : OpVI)
  | vmsleuVV (o : OpVV)
  | vmsleuVX (o : OpVX)
  | vmsleuVI (o : OpVI)
  | vmsleVV (o : OpVV)
  | vmsleVX (o : OpVX)
  | vmsleVI (o : OpVI)
  | vmsgtuVV (o : OpVV)
  | vmsgtuVX (o : OpVX)
  | vmsgtuVI (o : OpVI)
  | vmsgtVV (o : OpVV)
  | vmsgtVX (o : OpVX)
  | vmsgtVI (o : OpVI)
  | vmsgeuVV (o : OpVV)
  | vmsgeuVX (o : OpVX)
  | vmsgeuVI (o : OpVI)
  | vmsgeVV (o : OpVV)
  | vmsgeVX (o : OpVX)
  | vmsgeVI (o : OpVI)
  -- Multiply, divide, remainder, multiply-accumulate (R191 to R209)
  | vmulVV (o : OpVV)
  | vmulVX (o : OpVX)
  | vmulhVV (o : OpVV)
  | vmulhVX (o : OpVX)
  | vmulhuVV (o : OpVV)
  | vmulhuVX (o : OpVX)
  | vmulhsuVV (o : OpVV)
  | vmulhsuVX (o : OpVX)
  | vdivuVV (o : OpVV)
  | vdivuVX (o : OpVX)
  | vdivVV (o : OpVV)
  | vdivVX (o : OpVX)
  | vremuVV (o : OpVV)
  | vremuVX (o : OpVX)
  | vremVV (o : OpVV)
  | vremVX (o : OpVX)
  | vwmuluVV (o : OpVV)
  | vwmuluVX (o : OpVX)
  | vwmulVV (o : OpVV)
  | vwmulVX (o : OpVX)
  | vwmulsuVV (o : OpVV)
  | vwmulsuVX (o : OpVX)
  | vmaccVV (o : OpVV)
  | vmaccVX (o : OpVX)
  | vnmsacVV (o : OpVV)
  | vnmsacVX (o : OpVX)
  | vmaddVV (o : OpVV)
  | vmaddVX (o : OpVX)
  | vnmsubVV (o : OpVV)
  | vnmsubVX (o : OpVX)
  | vwmaccuVV (o : OpVV)
  | vwmaccuVX (o : OpVX)
  | vwmaccVV (o : OpVV)
  | vwmaccVX (o : OpVX)
  | vwmaccsuVV (o : OpVV)
  | vwmaccsuVX (o : OpVX)
  | vwmaccusVX (o : OpVX)
  -- Comparisons and carry operations (R231 to R244)
  | vadcVVM (o : OpVV)
  | vadcVXM (o : OpVX)
  | vadcVIM (o : OpVI)
  | vsbcVVM (o : OpVV)
  | vsbcVXM (o : OpVX)
  | vmadcVV (o : OpCV)
  | vmadcVVM (o : OpCV)
  | vmadcVX (o : OpCX)
  | vmadcVXM (o : OpCX)
  | vmadcVI (o : OpCI)
  | vmadcVIM (o : OpCI)
  | vmsbcVV (o : OpCV)
  | vmsbcVVM (o : OpCV)
  | vmsbcVX (o : OpCX)
  | vmsbcVXM (o : OpCX)
  -- Saturating and averaging operations (R282 to R290)
  | vsadduVV (o : OpVV)
  | vsadduVX (o : OpVX)
  | vsadduVI (o : OpVI)
  | vsaddVV (o : OpVV)
  | vsaddVX (o : OpVX)
  | vsaddVI (o : OpVI)
  | vssubuVV (o : OpVV)
  | vssubuVX (o : OpVX)
  | vssubVV (o : OpVV)
  | vssubVX (o : OpVX)
  | vaadduVV (o : OpVV)
  | vaadduVX (o : OpVX)
  | vaaddVV (o : OpVV)
  | vaaddVX (o : OpVX)
  | vasubuVV (o : OpVV)
  | vasubuVX (o : OpVX)
  | vasubVV (o : OpVV)
  | vasubVX (o : OpVX)
  -- Merge, move and slides (R260 to R266)
  | vmergeVVM (o : OpVV)
  | vmergeVXM (o : OpVX)
  | vmergeVIM (o : OpVI)
  | vmvVV (o : OpMvV)
  | vmvVX (o : OpMvX)
  | vmvVI (o : OpMvI)
  | vslideupVX (o : OpVX)
  | vslideupVI (o : OpVI)
  | vslidedownVX (o : OpVX)
  | vslidedownVI (o : OpVI)
  | vslide1upVX (o : OpVX)
  | vslide1downVX (o : OpVX)
  deriving DecidableEq, Repr

/-- The factor of an extension (R160). -/
inductive ExtFactor where
  | vf2
  | vf4
  | vf8
  deriving DecidableEq, Repr

/-- The factor as a number. -/
def ExtFactor.val : ExtFactor → Nat
  | .vf2 => 2
  | .vf4 => 4
  | .vf8 => 8

/-- The validation classes of R102. -/
inductive VClass where
  | same
  | slide
  | move
  | ext (f : ExtFactor)
  | widen
  | narrow
  | maskDst
  deriving DecidableEq, Repr

/-- The seven status values of R300. -/
inductive Status where
  | noExcept
  | src1VecIll
  | src2VecIll
  | dstVecIll
  | wideningOverlapVdVs1Ill
  | wideningOverlapVdVs2Ill
  | narrowingOverlapVdVs2Ill
  deriving DecidableEq, Repr

/-- Why a descriptor is reserved (R79, R82). -/
inductive DecodeError where
  /-- `REQ[63:38]` is not zero. -/
  | reservedBits
  /-- `form = 3`. -/
  | reservedForm
  /-- the `op` field is not in the operation map. -/
  | reservedOp
  /-- the `op` has no operation in this `form`. -/
  | reservedPair
  /-- a non-zero `vs1` field in form X or in a one-source operation. -/
  | nonzeroVs1
  /-- a non-zero `vs2` field in `vmv.v.*`. -/
  | nonzeroVs2
  deriving DecidableEq, Repr

/-- Why a configuration is outside the admitted domain (R84, R334). -/
inductive CfgError where
  /-- `(lmul_num, lmul_den)` is none of the seven pairs of R47. -/
  | multiplicity
  /-- an operand's element width is not 8, 16, 32 or 64. -/
  | elementWidth
  /-- an operand's effective multiplicity is outside 1/8 .. 8. -/
  | effectiveMultiplicity
  deriving DecidableEq, Repr

/-- The overlaps the block does not check and to which the spec gives no result (R336). -/
inductive Hazard where
  /-- an element destination based at `v0` while `v0` is read (R337). -/
  | v0Destination
  /-- a slide-up onto its own source (R338). -/
  | slideUpOntoSource
  /-- a mask destination at a higher register of a source group (R339). -/
  | maskInsideSource
  deriving DecidableEq, Repr

end Sys2Proof
end

