-- ==== Sys2Proof/Machine/Flags.lean ====
section
/-! DEFINITION. What the block computes beside a wrapped result: saturation (R280, R281), carry and borrow out of an
element (R243, R244), rounding of an average (R286). -/

namespace Sys2Proof.Machine

/-- `clampu` (R280). -/
def clampu (W : Nat) (x : Int) : Int :=
  if x < 0 then 0 else if 2 ^ W - 1 < x then 2 ^ W - 1 else x

/-- `clamps` (R280). -/
def clamps (W : Nat) (x : Int) : Int :=
  if x < -(2 ^ (W - 1)) then -(2 ^ (W - 1)) else if 2 ^ (W - 1) - 1 < x then 2 ^ (W - 1) - 1 else x

/-- An unsigned saturated result and whether the clamp changed it (R280). -/
def saturateU (W : Nat) (x : Int) : BitVec W × Bool := (trunc W (clampu W x), decide (clampu W x ≠ x))

/-- A signed saturated result and whether the clamp changed it (R280). -/
def saturateS (W : Nat) (x : Int) : BitVec W × Bool := (trunc W (clamps W x), decide (clamps W x ≠ x))

/-- Carry out of `a + b + c` at the element's width (R243). -/
def carryOut (W : Nat) (a b : BitVec W) (c : Bool) : Bool := decide (2 ^ W ≤ U a + U b + (c.toNat : Int))

/-- Borrow out of `a - b - c` at the element's width (R244). -/
def borrowOut (W : Nat) (a b : BitVec W) (c : Bool) : Bool := decide (U a < U b + (c.toNat : Int))

/-- The rounding increment for a right shift by one of the exact value `v` (R286). -/
def roundIncrement (mode : RoundMode) (v : Int) : Int :=
  match mode with
  | .rnu => v % 2
  | .rne => if v % 2 = 1 ∧ v / 2 % 2 = 1 then 1 else 0
  | .rdn => 0
  | .rod => if v % 2 = 1 ∧ v / 2 % 2 = 0 then 1 else 0

/-- `avg(v) = floor(v / 2) + r` (R286). -/
def average (mode : RoundMode) (v : Int) : Int := v / 2 + roundIncrement mode v

end Sys2Proof.Machine
end

