-- ==== Sys2Proof/Config.lean ====
section
/-! DEFINITION. What one instance of the block fixes (R5) and the values the spec leaves free. -/

namespace Sys2Proof

/-- The number of architectural vector registers, `NREG` (R5, R20, decision D2). -/
def Config.nreg : Nat := 32

/-- `XLEN`, the meaningful width of the scalar port: 32 or 64 (R5, decision D4). -/
inductive XLen where
  | x32
  | x64
  deriving DecidableEq, Repr

/-- `XLEN` in bits. -/
def XLen.bits : XLen → Nat
  | .x32 => 32
  | .x64 => 64

/-- The parameters of one instance (R5). `VLEN` is a power of two of at least 64, held as the exponent `k` of
`VLEN = 64 * 2^k`, so that every value of this type is a legal instance. -/
structure Params where
  vlenExp : Nat
  xlen : XLen
  deriving DecidableEq, Repr

/-- `VLENB = VLEN / 8`, bytes in one register (R5). -/
def Params.vlenb (p : Params) : Nat := 8 * 2 ^ p.vlenExp

/-- `VLEN`, bits in one register (R5). -/
def Params.vlen (p : Params) : Nat := 8 * p.vlenb

/-- The bytes of the register file, `NREG * VLENB` (R20, R40). -/
def Params.fileBytes (p : Params) : Nat := Config.nreg * p.vlenb

/-- DESIGN CHOICE, unsafe only if a statement rested on its value, which none can: the free byte that an abandoned
request leaves at a byte of its destination group (R331, U17), given the number of the abandonment and the address.
It has no body, so no proof can see its value (log 6). -/
opaque Config.abandonedByte : Nat → Nat → Byte

end Sys2Proof
end

