-- ==== Sys2Proof/Decode.lean ====
section
/-! DEFINITION. The request descriptor `REQ` (R70): its fields, the decoder (R79, R80, R82) and after it the encoder. -/

namespace Sys2Proof

/-- The fields of `REQ` as R70 lays them out. -/
structure Fields where
  op : BitVec 8
  form : BitVec 2
  me : Bool
  vd : BitVec 5
  vs1 : BitVec 5
  vs2 : BitVec 5
  vsew : BitVec 2
  lmulNum : BitVec 4
  lmulDen : BitVec 4
  vxrm : BitVec 2
  zero : BitVec 26
  deriving DecidableEq, Repr

/-- `REQ` taken apart, the bit ranges of R70. -/
def Fields.ofWord (w : Descriptor) : Fields where
  op := w.extractLsb' 0 8
  form := w.extractLsb' 8 2
  me := w.getLsbD 10
  vd := w.extractLsb' 11 5
  vs1 := w.extractLsb' 16 5
  vs2 := w.extractLsb' 21 5
  vsew := w.extractLsb' 26 2
  lmulNum := w.extractLsb' 28 4
  lmulDen := w.extractLsb' 32 4
  vxrm := w.extractLsb' 36 2
  zero := w.extractLsb' 38 26

/-- `REQ` put together, field beside field from bit 63 down to bit 0 (R70). -/
def Fields.toWord (f : Fields) : Descriptor :=
  f.zero ++ f.vxrm ++ f.lmulDen ++ f.lmulNum ++ f.vsew ++ f.vs2 ++ f.vs1 ++ f.vd ++ BitVec.ofBool f.me ++ f.form ++ f.op

/-- `SEW = 8 << vsew` (R70). -/
def Sew.ofField (v : BitVec 2) : Sew :=
  match v.toNat with
  | 0 => .e8
  | 1 => .e16
  | 2 => .e32
  | _ => .e64

/-- The `vsew` code of an element width (R70). -/
def Sew.field : Sew → BitVec 2
  | .e8 => 0
  | .e16 => 1
  | .e32 => 2
  | .e64 => 3

/-- The encoding of `vxrm` (R286). -/
def RoundMode.ofField (v : BitVec 2) : RoundMode :=
  match v.toNat with
  | 0 => .rnu
  | 1 => .rne
  | 2 => .rdn
  | _ => .rod

/-- The `vxrm` code of a rounding mode (R286). -/
def RoundMode.field : RoundMode → BitVec 2
  | .rnu => 0
  | .rne => 1
  | .rdn => 2
  | .rod => 3

/-- The configuration fields (R70, R75). -/
def Fields.cfg (f : Fields) : Cfg :=
  ⟨Sew.ofField f.vsew, f.lmulNum, f.lmulDen, RoundMode.ofField f.vxrm⟩

/-- A register field, used as it stands (R75). -/
def regOfField (v : BitVec 5) : VReg := v.toFin

/-- What one `(op, form)` pair makes of a descriptor's fields. -/
abbrev RowDecoder := Fields → Except DecodeError Instr

/-- A two-source operation in form V. -/
def rowVV (mk : OpVV → Instr) : RowDecoder := fun f =>
  .ok (mk ⟨f.me, regOfField f.vd, regOfField f.vs1, regOfField f.vs2, f.cfg⟩)

/-- An operation in form X: the `vs1` field must be 0 (R70, R82). -/
def rowVX (mk : OpVX → Instr) : RowDecoder := fun f =>
  if f.vs1 = 0 then .ok (mk ⟨f.me, regOfField f.vd, regOfField f.vs2, f.cfg⟩) else .error .nonzeroVs1

/-- An operation in form I: the `vs1` field is the immediate (R70). -/
def rowVI (mk : OpVI → Instr) : RowDecoder := fun f =>
  .ok (mk ⟨f.me, regOfField f.vd, f.vs1, regOfField f.vs2, f.cfg⟩)

/-- A one-source extension: the `vs1` field must be 0 (R70, R82). -/
def rowExt (mk : OpExt → Instr) : RowDecoder := fun f =>
  if f.vs1 = 0 then .ok (mk ⟨f.me, regOfField f.vd, regOfField f.vs2, f.cfg⟩) else .error .nonzeroVs1

/-- `vmv.v.v`: the `vs2` field must be 0 (R70, R82). -/
def rowMvV (mk : OpMvV → Instr) : RowDecoder := fun f =>
  if f.vs2 = 0 then .ok (mk ⟨f.me, regOfField f.vd, regOfField f.vs1, f.cfg⟩) else .error .nonzeroVs2

/-- `vmv.v.x`: the `vs1` and `vs2` fields must be 0 (R70, R82). -/
def rowMvX (mk : OpMvX → Instr) : RowDecoder := fun f =>
  if f.vs1 = 0 then
    if f.vs2 = 0 then .ok (mk ⟨f.me, regOfField f.vd, f.cfg⟩) else .error .nonzeroVs2
  else .error .nonzeroVs1

/-- `vmv.v.i`: the `vs2` field must be 0 (R70, R82). -/
def rowMvI (mk : OpMvI → Instr) : RowDecoder := fun f =>
  if f.vs2 = 0 then .ok (mk ⟨f.me, regOfField f.vd, f.vs1, f.cfg⟩) else .error .nonzeroVs2

/-- A carry or borrow producer in form V: `me` selects the row (R79, R243). -/
def rowCV (plain withCarry : OpCV → Instr) : RowDecoder := fun f =>
  .ok ((if f.me then withCarry else plain) ⟨regOfField f.vd, regOfField f.vs1, regOfField f.vs2, f.cfg⟩)

/-- A carry or borrow producer in form X (R79, R243). -/
def rowCX (plain withCarry : OpCX → Instr) : RowDecoder := fun f =>
  if f.vs1 = 0 then
    .ok ((if f.me then withCarry else plain) ⟨regOfField f.vd, regOfField f.vs2, f.cfg⟩)
  else .error .nonzeroVs1

/-- A carry producer in form I (R79, R243). -/
def rowCI (plain withCarry : OpCI → Instr) : RowDecoder := fun f =>
  .ok ((if f.me then withCarry else plain) ⟨regOfField f.vd, f.vs1, regOfField f.vs2, f.cfg⟩)

/-- A pair the operation map does not list (R82). -/
def absentForm : RowDecoder := fun _ => .error .reservedPair

/-- Selection by the `form` field: V, X, I, and 3 is reserved (R70, R82). -/
def byForm (f : Fields) (v x i : RowDecoder) : Except DecodeError Instr :=
  match f.form.toNat with
  | 0 => v f
  | 1 => x f
  | 2 => i f
  | _ => .error .reservedForm

/-- The operation map of R80: one line per operation, its forms V, X and I in that order. -/
def decodeOp (f : Fields) : Except DecodeError Instr :=
  match f.op.toNat with
  | 0x00 => byForm f (rowVV .vaddVV) (rowVX .vaddVX) (rowVI .vaddVI)
  | 0x01 => byForm f (rowVV .vsubVV) (rowVX .vsubVX) absentForm
  | 0x02 => byForm f absentForm (rowVX .vrsubVX) (rowVI .vrsubVI)
  | 0x03 => byForm f (rowVV .vandVV) (rowVX .vandVX) (rowVI .vandVI)
  | 0x04 => byForm f (rowVV .vorVV) (rowVX .vorVX) (rowVI .vorVI)
  | 0x05 => byForm f (rowVV .vxorVV) (rowVX .vxorVX) (rowVI .vxorVI)
  | 0x06 => byForm f (rowVV .vsllVV) (rowVX .vsllVX) (rowVI .vsllVI)
  | 0x07 => byForm f (rowVV .vsrlVV) (rowVX .vsrlVX) (rowVI .vsrlVI)
  | 0x08 => byForm f (rowVV .vsraVV) (rowVX .vsraVX) (rowVI .vsraVI)
  | 0x09 => byForm f (rowVV .vminuVV) (rowVX .vminuVX) absentForm
  | 0x0A => byForm f (rowVV .vminVV) (rowVX .vminVX) absentForm
  | 0x0B => byForm f (rowVV .vmaxuVV) (rowVX .vmaxuVX) absentForm
  | 0x0C => byForm f (rowVV .vmaxVV) (rowVX .vmaxVX) absentForm
  | 0x10 => byForm f (rowExt .vzextVf2) absentForm absentForm
  | 0x11 => byForm f (rowExt .vzextVf4) absentForm absentForm
  | 0x12 => byForm f (rowExt .vzextVf8) absentForm absentForm
  | 0x13 => byForm f (rowExt .vsextVf2) absentForm absentForm
  | 0x14 => byForm f (rowExt .vsextVf4) absentForm absentForm
  | 0x15 => byForm f (rowExt .vsextVf8) absentForm absentForm
  | 0x18 => byForm f (rowVV .vwadduVV) (rowVX .vwadduVX) absentForm
  | 0x19 => byForm f (rowVV .vwaddVV) (rowVX .vwaddVX) absentForm
  | 0x1A => byForm f (rowVV .vwsubuVV) (rowVX .vwsubuVX) absentForm
  | 0x1B => byForm f (rowVV .vwsubVV) (rowVX .vwsubVX) absentForm
  | 0x1C => byForm f (rowVV .vnsrlWV) (rowVX .vnsrlWX) (rowVI .vnsrlWI)
  | 0x1D => byForm f (rowVV .vnsraWV) (rowVX .vnsraWX) (rowVI .vnsraWI)
  | 0x20 => byForm f (rowVV .vmseqVV) (rowVX .vmseqVX) (rowVI .vmseqVI)
  | 0x21 => byForm f (rowVV .vmsneVV) (rowVX .vmsneVX) (rowVI .vmsneVI)
  | 0x22 => byForm f (rowVV .vmsltuVV) (rowVX .vmsltuVX) (rowVI .vmsltuVI)
  | 0x23 => byForm f (rowVV .vmsltVV) (rowVX .vmsltVX) (rowVI .vmsltVI)
  | 0x24 => byForm f (rowVV .vmsleuVV) (rowVX .vmsleuVX) (rowVI .vmsleuVI)
  | 0x25 => byForm f (rowVV .vmsleVV) (rowVX .vmsleVX) (rowVI .vmsleVI)
  | 0x26 => byForm f (rowVV .vmsgtuVV) (rowVX .vmsgtuVX) (rowVI .vmsgtuVI)
  | 0x27 => byForm f (rowVV .vmsgtVV) (rowVX .vmsgtVX) (rowVI .vmsgtVI)
  | 0x28 => byForm f (rowVV .vmsgeuVV) (rowVX .vmsgeuVX) (rowVI .vmsgeuVI)
  | 0x29 => byForm f (rowVV .vmsgeVV) (rowVX .vmsgeVX) (rowVI .vmsgeVI)
  | 0x30 => byForm f (rowVV .vmulVV) (rowVX .vmulVX) absentForm
  | 0x31 => byForm f (rowVV .vmulhVV) (rowVX .vmulhVX) absentForm
  | 0x32 => byForm f (rowVV .vmulhuVV) (rowVX .vmulhuVX) absentForm
  | 0x33 => byForm f (rowVV .vmulhsuVV) (rowVX .vmulhsuVX) absentForm
  | 0x34 => byForm f (rowVV .vdivuVV) (rowVX .vdivuVX) absentForm
  | 0x35 => byForm f (rowVV .vdivVV) (rowVX .vdivVX) absentForm
  | 0x36 => byForm f (rowVV .vremuVV) (rowVX .vremuVX) absentForm
  | 0x37 => byForm f (rowVV .vremVV) (rowVX .vremVX) absentForm
  | 0x38 => byForm f (rowVV .vwmuluVV) (rowVX .vwmuluVX) absentForm
  | 0x39 => byForm f (rowVV .vwmulVV) (rowVX .vwmulVX) absentForm
  | 0x3A => byForm f (rowVV .vwmulsuVV) (rowVX .vwmulsuVX) absentForm
  | 0x40 => byForm f (rowVV .vmaccVV) (rowVX .vmaccVX) absentForm
  | 0x41 => byForm f (rowVV .vnmsacVV) (rowVX .vnmsacVX) absentForm
  | 0x42 => byForm f (rowVV .vmaddVV) (rowVX .vmaddVX) absentForm
  | 0x43 => byForm f (rowVV .vnmsubVV) (rowVX .vnmsubVX) absentForm
  | 0x44 => byForm f (rowVV .vwmaccuVV) (rowVX .vwmaccuVX) absentForm
  | 0x45 => byForm f (rowVV .vwmaccVV) (rowVX .vwmaccVX) absentForm
  | 0x46 => byForm f (rowVV .vwmaccsuVV) (rowVX .vwmaccsuVX) absentForm
  | 0x47 => byForm f absentForm (rowVX .vwmaccusVX) absentForm
  | 0x50 => byForm f (rowVV .vadcVVM) (rowVX .vadcVXM) (rowVI .vadcVIM)
  | 0x51 => byForm f (rowVV .vsbcVVM) (rowVX .vsbcVXM) absentForm
  | 0x52 => byForm f (rowCV .vmadcVV .vmadcVVM) (rowCX .vmadcVX .vmadcVXM) (rowCI .vmadcVI .vmadcVIM)
  | 0x53 => byForm f (rowCV .vmsbcVV .vmsbcVVM) (rowCX .vmsbcVX .vmsbcVXM) absentForm
  | 0x58 => byForm f (rowVV .vsadduVV) (rowVX .vsadduVX) (rowVI .vsadduVI)
  | 0x59 => byForm f (rowVV .vsaddVV) (rowVX .vsaddVX) (rowVI .vsaddVI)
  | 0x5A => byForm f (rowVV .vssubuVV) (rowVX .vssubuVX) absentForm
  | 0x5B => byForm f (rowVV .vssubVV) (rowVX .vssubVX) absentForm
  | 0x5C => byForm f (rowVV .vaadduVV) (rowVX .vaadduVX) absentForm
  | 0x5D => byForm f (rowVV .vaaddVV) (rowVX .vaaddVX) absentForm
  | 0x5E => byForm f (rowVV .vasubuVV) (rowVX .vasubuVX) absentForm
  | 0x5F => byForm f (rowVV .vasubVV) (rowVX .vasubVX) absentForm
  | 0x60 => byForm f (rowVV .vmergeVVM) (rowVX .vmergeVXM) (rowVI .vmergeVIM)
  | 0x61 => byForm f (rowMvV .vmvVV) (rowMvX .vmvVX) (rowMvI .vmvVI)
  | 0x68 => byForm f absentForm (rowVX .vslideupVX) (rowVI .vslideupVI)
  | 0x69 => byForm f absentForm (rowVX .vslidedownVX) (rowVI .vslidedownVI)
  | 0x6A => byForm f absentForm (rowVX .vslide1upVX) absentForm
  | 0x6B => byForm f absentForm (rowVX .vslide1downVX) absentForm
  | _ => .error .reservedOp

/-- The checks of R79 over the fields of a descriptor. -/
def decodeFields (f : Fields) : Except DecodeError Instr :=
  if f.zero = 0 then decodeOp f else .error .reservedBits

/-- The decoder: the instruction of a descriptor, or the name of what is reserved in it (R79, R82). -/
def decode (w : Descriptor) : Except DecodeError Instr :=
  decodeFields (Fields.ofWord w)

/-- The instruction the decoder reads from a table row's bits: `REQ` is one 64-bit word, so the bits are that word's own,
those above `nbits` are 0, and a value that needs more than 64 bits is no descriptor. -/
def decodeTableWord (nbits w : Nat) : Option Instr :=
  if w % 2 ^ nbits < 2 ^ 64 then (decode (BitVec.ofNat 64 (w % 2 ^ nbits))).toOption else none

/-! The encoder, from the same layout. -/

/-- The field of a register index. -/
def regField (r : VReg) : BitVec 5 := BitVec.ofFin r

/-- Fields common to every encoding: configuration and zero bits (R70). -/
def Cfg.fields (c : Cfg) (op : BitVec 8) (form : BitVec 2) (me : Bool) (vd : VReg) (vs1 vs2 : BitVec 5) : Fields :=
  ⟨op, form, me, regField vd, vs1, vs2, c.sew.field, c.lmulNum, c.lmulDen, c.vxrm.field, 0⟩

/-- Form V (form field 0). -/
def OpVV.fields (op : BitVec 8) (o : OpVV) : Fields := o.cfg.fields op 0 o.me o.vd (regField o.vs1) (regField o.vs2)

/-- Form X (form field 1), `vs1` field 0. -/
def OpVX.fields (op : BitVec 8) (o : OpVX) : Fields := o.cfg.fields op 1 o.me o.vd 0 (regField o.vs2)

/-- Form I (form field 2). -/
def OpVI.fields (op : BitVec 8) (o : OpVI) : Fields := o.cfg.fields op 2 o.me o.vd o.imm (regField o.vs2)

/-- Extension: form V with `vs1` field 0. -/
def OpExt.fields (op : BitVec 8) (o : OpExt) : Fields := o.cfg.fields op 0 o.me o.vd 0 (regField o.vs2)

/-- `vmv.v.v`: form V with `vs2` field 0. -/
def OpMvV.fields (op : BitVec 8) (o : OpMvV) : Fields := o.cfg.fields op 0 o.me o.vd (regField o.vs1) 0

/-- `vmv.v.x`: form X with both source fields 0. -/
def OpMvX.fields (op : BitVec 8) (o : OpMvX) : Fields := o.cfg.fields op 1 o.me o.vd 0 0

/-- `vmv.v.i`: form I with `vs2` field 0. -/
def OpMvI.fields (op : BitVec 8) (o : OpMvI) : Fields := o.cfg.fields op 2 o.me o.vd o.imm 0

/-- Carry or borrow producer, form V, `me` given by the row. -/
def OpCV.fields (op : BitVec 8) (me : Bool) (o : OpCV) : Fields :=
  o.cfg.fields op 0 me o.vd (regField o.vs1) (regField o.vs2)

/-- Carry or borrow producer, form X, `me` given by the row. -/
def OpCX.fields (op : BitVec 8) (me : Bool) (o : OpCX) : Fields := o.cfg.fields op 1 me o.vd 0 (regField o.vs2)

/-- Carry producer, form I, `me` given by the row. -/
def OpCI.fields (op : BitVec 8) (me : Bool) (o : OpCI) : Fields := o.cfg.fields op 2 me o.vd o.imm (regField o.vs2)

/-- The descriptor fields of every instruction (R80). -/
def Instr.fields : Instr → Fields
  | .vaddVV o => o.fields 0x00
  | .vaddVX o => o.fields 0x00
  | .vaddVI o => o.fields 0x00
  | .vsubVV o => o.fields 0x01
  | .vsubVX o => o.fields 0x01
  | .vrsubVX o => o.fields 0x02
  | .vrsubVI o => o.fields 0x02
  | .vandVV o => o.fields 0x03
  | .vandVX o => o.fields 0x03
  | .vandVI o => o.fields 0x03
  | .vorVV o => o.fields 0x04
  | .vorVX o => o.fields 0x04
  | .vorVI o => o.fields 0x04
  | .vxorVV o => o.fields 0x05
  | .vxorVX o => o.fields 0x05
  | .vxorVI o => o.fields 0x05
  | .vsllVV o => o.fields 0x06
  | .vsllVX o => o.fields 0x06
  | .vsllVI o => o.fields 0x06
  | .vsrlVV o => o.fields 0x07
  | .vsrlVX o => o.fields 0x07
  | .vsrlVI o => o.fields 0x07
  | .vsraVV o => o.fields 0x08
  | .vsraVX o => o.fields 0x08
  | .vsraVI o => o.fields 0x08
  | .vminuVV o => o.fields 0x09
  | .vminuVX o => o.fields 0x09
  | .vminVV o => o.fields 0x0A
  | .vminVX o => o.fields 0x0A
  | .vmaxuVV o => o.fields 0x0B
  | .vmaxuVX o => o.fields 0x0B
  | .vmaxVV o => o.fields 0x0C
  | .vmaxVX o => o.fields 0x0C
  | .vzextVf2 o => o.fields 0x10
  | .vzextVf4 o => o.fields 0x11
  | .vzextVf8 o => o.fields 0x12
  | .vsextVf2 o => o.fields 0x13
  | .vsextVf4 o => o.fields 0x14
  | .vsextVf8 o => o.fields 0x15
  | .vwadduVV o => o.fields 0x18
  | .vwadduVX o => o.fields 0x18
  | .vwaddVV o => o.fields 0x19
  | .vwaddVX o => o.fields 0x19
  | .vwsubuVV o => o.fields 0x1A
  | .vwsubuVX o => o.fields 0x1A
  | .vwsubVV o => o.fields 0x1B
  | .vwsubVX o => o.fields 0x1B
  | .vnsrlWV o => o.fields 0x1C
  | .vnsrlWX o => o.fields 0x1C
  | .vnsrlWI o => o.fields 0x1C
  | .vnsraWV o => o.fields 0x1D
  | .vnsraWX o => o.fields 0x1D
  | .vnsraWI o => o.fields 0x1D
  | .vmseqVV o => o.fields 0x20
  | .vmseqVX o => o.fields 0x20
  | .vmseqVI o => o.fields 0x20
  | .vmsneVV o => o.fields 0x21
  | .vmsneVX o => o.fields 0x21
  | .vmsneVI o => o.fields 0x21
  | .vmsltuVV o => o.fields 0x22
  | .vmsltuVX o => o.fields 0x22
  | .vmsltuVI o => o.fields 0x22
  | .vmsltVV o => o.fields 0x23
  | .vmsltVX o => o.fields 0x23
  | .vmsltVI o => o.fields 0x23
  | .vmsleuVV o => o.fields 0x24
  | .vmsleuVX o => o.fields 0x24
  | .vmsleuVI o => o.fields 0x24
  | .vmsleVV o => o.fields 0x25
  | .vmsleVX o => o.fields 0x25
  | .vmsleVI o => o.fields 0x25
  | .vmsgtuVV o => o.fields 0x26
  | .vmsgtuVX o => o.fields 0x26
  | .vmsgtuVI o => o.fields 0x26
  | .vmsgtVV o => o.fields 0x27
  | .vmsgtVX o => o.fields 0x27
  | .vmsgtVI o => o.fields 0x27
  | .vmsgeuVV o => o.fields 0x28
  | .vmsgeuVX o => o.fields 0x28
  | .vmsgeuVI o => o.fields 0x28
  | .vmsgeVV o => o.fields 0x29
  | .vmsgeVX o => o.fields 0x29
  | .vmsgeVI o => o.fields 0x29
  | .vmulVV o => o.fields 0x30
  | .vmulVX o => o.fields 0x30
  | .vmulhVV o => o.fields 0x31
  | .vmulhVX o => o.fields 0x31
  | .vmulhuVV o => o.fields 0x32
  | .vmulhuVX o => o.fields 0x32
  | .vmulhsuVV o => o.fields 0x33
  | .vmulhsuVX o => o.fields 0x33
  | .vdivuVV o => o.fields 0x34
  | .vdivuVX o => o.fields 0x34
  | .vdivVV o => o.fields 0x35
  | .vdivVX o => o.fields 0x35
  | .vremuVV o => o.fields 0x36
  | .vremuVX o => o.fields 0x36
  | .vremVV o => o.fields 0x37
  | .vremVX o => o.fields 0x37
  | .vwmuluVV o => o.fields 0x38
  | .vwmuluVX o => o.fields 0x38
  | .vwmulVV o => o.fields 0x39
  | .vwmulVX o => o.fields 0x39
  | .vwmulsuVV o => o.fields 0x3A
  | .vwmulsuVX o => o.fields 0x3A
  | .vmaccVV o => o.fields 0x40
  | .vmaccVX o => o.fields 0x40
  | .vnmsacVV o => o.fields 0x41
  | .vnmsacVX o => o.fields 0x41
  | .vmaddVV o => o.fields 0x42
  | .vmaddVX o => o.fields 0x42
  | .vnmsubVV o => o.fields 0x43
  | .vnmsubVX o => o.fields 0x43
  | .vwmaccuVV o => o.fields 0x44
  | .vwmaccuVX o => o.fields 0x44
  | .vwmaccVV o => o.fields 0x45
  | .vwmaccVX o => o.fields 0x45
  | .vwmaccsuVV o => o.fields 0x46
  | .vwmaccsuVX o => o.fields 0x46
  | .vwmaccusVX o => o.fields 0x47
  | .vadcVVM o => o.fields 0x50
  | .vadcVXM o => o.fields 0x50
  | .vadcVIM o => o.fields 0x50
  | .vsbcVVM o => o.fields 0x51
  | .vsbcVXM o => o.fields 0x51
  | .vmadcVV o => o.fields 0x52 false
  | .vmadcVVM o => o.fields 0x52 true
  | .vmadcVX o => o.fields 0x52 false
  | .vmadcVXM o => o.fields 0x52 true
  | .vmadcVI o => o.fields 0x52 false
  | .vmadcVIM o => o.fields 0x52 true
  | .vmsbcVV o => o.fields 0x53 false
  | .vmsbcVVM o => o.fields 0x53 true
  | .vmsbcVX o => o.fields 0x53 false
  | .vmsbcVXM o => o.fields 0x53 true
  | .vsadduVV o => o.fields 0x58
  | .vsadduVX o => o.fields 0x58
  | .vsadduVI o => o.fields 0x58
  | .vsaddVV o => o.fields 0x59
  | .vsaddVX o => o.fields 0x59
  | .vsaddVI o => o.fields 0x59
  | .vssubuVV o => o.fields 0x5A
  | .vssubuVX o => o.fields 0x5A
  | .vssubVV o => o.fields 0x5B
  | .vssubVX o => o.fields 0x5B
  | .vaadduVV o => o.fields 0x5C
  | .vaadduVX o => o.fields 0x5C
  | .vaaddVV o => o.fields 0x5D
  | .vaaddVX o => o.fields 0x5D
  | .vasubuVV o => o.fields 0x5E
  | .vasubuVX o => o.fields 0x5E
  | .vasubVV o => o.fields 0x5F
  | .vasubVX o => o.fields 0x5F
  | .vmergeVVM o => o.fields 0x60
  | .vmergeVXM o => o.fields 0x60
  | .vmergeVIM o => o.fields 0x60
  | .vmvVV o => o.fields 0x61
  | .vmvVX o => o.fields 0x61
  | .vmvVI o => o.fields 0x61
  | .vslideupVX o => o.fields 0x68
  | .vslideupVI o => o.fields 0x68
  | .vslidedownVX o => o.fields 0x69
  | .vslidedownVI o => o.fields 0x69
  | .vslide1upVX o => o.fields 0x6A
  | .vslide1downVX o => o.fields 0x6B

/-- The encoder: the descriptor of an instruction (R70, R80). -/
def encode (i : Instr) : Descriptor := i.fields.toWord

end Sys2Proof
end

