-- ==== Sys2Proof/Machine/State.lean ====
section
/-! DEFINITION. The state of the block and of the host's side of its ports, as plain data (R20, R28 to R33, R330, R331),
the reasons a step can stop, and the state after reset. -/

namespace Sys2Proof.Machine

/-- The bytes of the register file that differ from what an unlisted address reads as, in canonical form: addresses
strictly rising, no entry equal to the unlisted byte (`Memory.wf`). -/
abbrev Memory := List Host.Cell

/-- The request port (R28): the descriptor and the three values beside it (R71). -/
structure Request where
  req : Descriptor
  vl : Nat
  vstart : Nat
  rs1 : Scalar
  deriving DecidableEq, Repr

/-- The response port (R30). -/
structure Response where
  status : Status
  sat : Bool
  deriving DecidableEq, Repr

/-- What the host does next (R11, R25, R29, R330); the model's own type, log 1. -/
inductive HostInput where
  /-- presents a request. -/
  | request (r : Request)
  /-- `HostRead(a, n)`. -/
  | hostRead (a n : Nat)
  /-- `HostWrite(a, n, bytes)`, `n` the number of bytes. -/
  | hostWrite (a : Nat) (bytes : List Byte)
  /-- asserts the reset input between requests. -/
  | reset
  /-- presents a request and asserts the reset input while it is in progress (R330, R331, U17). -/
  | abandoned (r : Request)
  deriving DecidableEq, Repr

/-- Everything the spec gives the machine, and two fields of the model's own (`inputs`, `freeCount`). -/
structure State where
  /-- the instance's parameters, constant (R5). -/
  params : Params
  /-- the vector register file (R20). -/
  vrf : Memory
  /-- what the host drives on the request port (R28). -/
  port : Request
  /-- the response port; `none` while it carries no value (R30, R32). -/
  response : Option Response
  /-- what the host port last answered a `HostRead` with (R29). -/
  readData : Option (List Byte)
  /-- the model's own: the host's coming actions, the next first (log 1). -/
  inputs : List HostInput
  /-- the model's own: how many free values have been used (log 6). -/
  freeCount : Nat
  deriving DecidableEq, Repr

/-- Why the machine stops with a fault. -/
inductive Fault where
  /-- raised by a host-port access that leaves the byte space: R29 bounds the access and gives no effect beyond the bound
  (safe: the model stops). -/
  | hostPortOutOfRange (a n : Nat)
  deriving DecidableEq, Repr

/-- Why a step has no meaning: the situations to which the spec gives no result and which it says a model refuses. -/
inductive Refusal where
  /-- raised by a dispatch arm whose instruction has no meaning yet; no arm raises it (safe). -/
  | notModelled (mnemonic : String)
  /-- raised by `step` on a descriptor the decoder rejects (R82, R305, U1; safe). -/
  | reservedDescriptor (e : DecodeError)
  /-- raised by any request whose configuration is outside the admitted domain (R84, R334, U2, U3, U5; safe). -/
  | notAdmitted (e : CfgError)
  /-- raised by any request with `VL > VLMAX` (R104, R334, U4; safe). -/
  | vectorLength
  /-- raised by a request that passes validation and has a hazardous overlap (R336, U6; safe). -/
  | hazardous (h : Hazard)
  deriving DecidableEq, Repr

/-- The block right after reset (R32, R330, R331): idle, no response pending. The register file is unspecified by the
spec; DESIGN CHOICE, unsafe: it reads as zero (log 2). The parameters are those of the spec's vectors (log 5), the idle
ports carry zero (logs 3, 4), the host has announced nothing (log 1), no free value has been used (log 6). -/
def State.reset : State where
  params := ⟨1, .x64⟩
  vrf := []
  port := ⟨0, 0, 0, 0⟩
  response := none
  readData := none
  inputs := []
  freeCount := 0

end Sys2Proof.Machine
end

