-- ==== Sys2Proof/Machine/Memory.lean ====
section
/-! DEFINITION. Bytes, elements and bits of the register-file byte space (R40 to R46) over its sparse representation. -/

namespace Sys2Proof.Machine

/-- What a byte that nothing has written reads as. The spec leaves it unspecified (R32, R331, U14); DESIGN CHOICE,
unsafe: zero (log 2). -/
def Memory.unlisted : Byte := 0

/-- The byte at an address, `VRF[a]` (R7). -/
def Memory.read : Memory → Nat → Byte
  | [], _ => Memory.unlisted
  | (k, b) :: m, a => if a = k then b else Memory.read m a

/-- Writes one byte and keeps the canonical form: a byte equal to the unlisted one is removed. -/
def Memory.write : Memory → Nat → Byte → Memory
  | [], a, v => if v = Memory.unlisted then [] else [(a, v)]
  | (k, b) :: m, a, v =>
    if a < k then (if v = Memory.unlisted then (k, b) :: m else (a, v) :: (k, b) :: m)
    else if a = k then (if v = Memory.unlisted then m else (a, v) :: m)
    else (k, b) :: Memory.write m a v

/-- The canonical form: every entry above `lo`, addresses strictly rising, no entry equal to the unlisted byte. -/
def Memory.wfAbove : Nat → Memory → Bool
  | _, [] => true
  | lo, (k, b) :: m => decide (lo ≤ k) && (!decide (b = Memory.unlisted) && Memory.wfAbove (k + 1) m)

/-- The memory is in canonical form. -/
def Memory.wf (m : Memory) : Bool := Memory.wfAbove 0 m

/-- Every listed address is below `n`. -/
def Memory.within (n : Nat) (m : Memory) : Bool := m.all fun c => decide (c.1 < n)

/-- `n` bytes from `a` as a number, the byte at the lowest address least significant (R43). -/
def Memory.readNat (m : Memory) : Nat → Nat → Nat
  | _, 0 => 0
  | a, n + 1 => (Memory.read m a).toNat + 256 * Memory.readNat m (a + 1) n

/-- `MemRead(a, n)` (R7, R43). -/
def Memory.memRead (m : Memory) (a n : Nat) : BitVec (8 * n) := BitVec.ofNat (8 * n) (Memory.readNat m a n)

/-- Stores the low `n` bytes of a number, the least significant at the lowest address (R43). -/
def Memory.writeNat : Memory → Nat → Nat → Nat → Memory
  | m, _, 0, _ => m
  | m, a, n + 1, v => Memory.writeNat (Memory.write m a (BitVec.ofNat 8 v)) (a + 1) n (v / 256)

/-- `MemWrite(a, n, v)` (R7, R43). -/
def Memory.memWrite (m : Memory) (a n : Nat) (v : BitVec (8 * n)) : Memory := Memory.writeNat m a n v.toNat

/-- The address of element `i`, `w` bytes wide, of the group at `r` (R42, R44). -/
def elemAddr (vlenb : Nat) (r : VReg) (i w : Nat) : Nat := r.val * vlenb + i * w

/-- `E(r, i, w)` (R44). -/
def readElem (vlenb : Nat) (m : Memory) (r : VReg) (i w : Nat) : BitVec (8 * w) :=
  Memory.memRead m (elemAddr vlenb r i w) w

/-- `E(r, i, w) <- v` (R44). -/
def writeElem (vlenb : Nat) (m : Memory) (r : VReg) (i w : Nat) (v : BitVec (8 * w)) : Memory :=
  Memory.memWrite m (elemAddr vlenb r i w) w v

/-- The address of the byte that holds bit `i` of register `r` (R46). -/
def bitAddr (vlenb : Nat) (r : VReg) (i : Nat) : Nat := r.val * vlenb + i / 8

/-- `M(r, i)` (R46). -/
def readBit (vlenb : Nat) (m : Memory) (r : VReg) (i : Nat) : Bool :=
  (Memory.read m (bitAddr vlenb r i)).getLsbD (i % 8)

/-- A byte with one of its bits replaced (R46). -/
def setBit (b : Byte) (k : Nat) (v : Bool) : Byte :=
  if v then b ||| BitVec.ofNat 8 (2 ^ k) else b &&& ~~~(BitVec.ofNat 8 (2 ^ k))

/-- `M(r, i) <- b`: the other seven bits of the byte keep their values (R46). -/
def writeBit (vlenb : Nat) (m : Memory) (r : VReg) (i : Nat) (v : Bool) : Memory :=
  Memory.write m (bitAddr vlenb r i) (setBit (Memory.read m (bitAddr vlenb r i)) (i % 8) v)

/-- `n` bytes from `a`, in address order (R29). -/
def Memory.readBytes (m : Memory) : Nat → Nat → List Byte
  | _, 0 => []
  | a, n + 1 => Memory.read m a :: Memory.readBytes m (a + 1) n

/-- Stores a list of bytes from `a` on, in address order (R29). -/
def Memory.writeBytes : Memory → Nat → List Byte → Memory
  | m, _, [] => m
  | m, a, b :: bs => Memory.writeBytes (Memory.write m a b) (a + 1) bs

end Sys2Proof.Machine
end

