-- ==== Sys2Proof/Machine/Multiplicity.lean ====
section
/-! DEFINITION. Element widths, group multiplicities, alignment, overlap and the admitted configurations (R47 to R55, R84,
R101, R334). -/

namespace Sys2Proof.Machine

/-- An exact multiplicity `num / den` (R47, R75). -/
structure Mult where
  num : Nat
  den : Nat
  deriving DecidableEq, Repr

/-- `SEWB`, bytes in one element (R70). -/
def sewb : Sew → Nat
  | .e8 => 1
  | .e16 => 2
  | .e32 => 4
  | .e64 => 8

/-- `SEW` in bits (R101). -/
def sewBits (s : Sew) : Nat := 8 * sewb s

/-- `LMUL = lmul_num / lmul_den` (R75). -/
def lmul (c : Cfg) : Mult := ⟨c.lmulNum.toNat, c.lmulDen.toNat⟩

/-- A multiplicity times a whole number (R48). -/
def Mult.times (m : Mult) (k : Nat) : Mult := ⟨k * m.num, m.den⟩

/-- A multiplicity divided by a whole number (R48). -/
def Mult.over (m : Mult) (k : Nat) : Mult := ⟨m.num, m.den * k⟩

/-- `EMUL < 1` (R50). -/
def Mult.fractional (m : Mult) : Bool := decide (m.num < m.den)

/-- `ceil(EMUL)` (R49, R50). -/
def Mult.ceil (m : Mult) : Nat := (m.num + m.den - 1) / m.den

/-- `nreg(EMUL) = max(1, ceil(EMUL))` (R49). -/
def Mult.nreg (m : Mult) : Nat := max 1 m.ceil

/-- `1/8 <= EMUL <= 8` (R84, R334). -/
def Mult.inRange (m : Mult) : Bool := decide (m.den ≤ 8 * m.num) && decide (m.num ≤ 8 * m.den)

/-- The seven admitted pairs (R47). -/
def admittedPairs : List Mult := [⟨1, 8⟩, ⟨1, 4⟩, ⟨1, 2⟩, ⟨1, 1⟩, ⟨2, 1⟩, ⟨4, 1⟩, ⟨8, 1⟩]

/-- `aligned(r, EMUL)` (R50). -/
def aligned (r : VReg) (m : Mult) : Bool := m.fractional || decide (r.val % m.ceil = 0)

/-- The groups `G(r, m)` and `G(r', m')` share no register (R49, R52). -/
def disjointGroups (r : VReg) (m : Mult) (r' : VReg) (m' : Mult) : Bool :=
  decide (r.val + m.nreg ≤ r'.val) || decide (r'.val + m'.nreg ≤ r.val)

/-- `widen_ok(vd, vs, EMUL_s, EMUL_d)` (R53, R55). -/
def widenOk (vd vs : VReg) (ms md : Mult) : Bool :=
  disjointGroups vd md vs ms || (!ms.fractional && decide (vs.val + ms.nreg = vd.val + md.nreg))

/-- `narrow_ok(vd, vs2, EMUL_d, EMUL_s)` (R54). -/
def narrowOk (vd vs2 : VReg) (md ms : Mult) : Bool := disjointGroups vd md vs2 ms || decide (vd = vs2)

/-- `VLMAX = floor((VLEN / SEW) * LMUL)` (R101). -/
def vlmax (p : Params) (c : Cfg) : Nat := p.vlen * (lmul c).num / (sewBits c.sew * (lmul c).den)

/-- Effective width in bits and multiplicity of one operand (R48). -/
structure Shape where
  eew : Nat
  emul : Mult
  deriving DecidableEq, Repr

/-- An operand of the request's own width (R102). -/
def ownShape (c : Cfg) : Shape := ⟨sewBits c.sew, lmul c⟩

/-- A double-width operand (R102, R160). -/
def wideShape (c : Cfg) : Shape := ⟨2 * sewBits c.sew, (lmul c).times 2⟩

/-- The source of an extension (R102, R160). -/
def fracShape (f : ExtFactor) (c : Cfg) : Shape := ⟨sewBits c.sew / f.val, (lmul c).over f.val⟩

/-- The shape of `vd` per class; a mask destination is one register and has none (R102). -/
def vdShape (k : VClass) (c : Cfg) : Option Shape :=
  match k with
  | .widen => some (wideShape c)
  | .maskDst => none
  | .same | .slide | .move | .ext _ | .narrow => some (ownShape c)

/-- The shape of `vs2` per class (R102). -/
def vs2Shape (k : VClass) (c : Cfg) : Option Shape :=
  match k with
  | .ext f => some (fracShape f c)
  | .narrow => some (wideShape c)
  | .move => none
  | .same | .slide | .widen | .maskDst => some (ownShape c)

/-- The shapes of every operand a class can have; `vs1` always has the request's own (R102). -/
def shapes (k : VClass) (c : Cfg) : List Shape :=
  ownShape c :: ((vdShape k c).toList ++ (vs2Shape k c).toList)

/-- The configuration part of `admitted` (R334), the first error named; `none` when the configuration is admitted. -/
def cfgError (k : VClass) (c : Cfg) : Option CfgError :=
  if lmul c ∉ admittedPairs then some .multiplicity
  else if (shapes k c).any fun s => decide (s.eew ∉ [8, 16, 32, 64]) then some .elementWidth
  else if (shapes k c).any fun s => !s.emul.inRange then some .effectiveMultiplicity
  else none

end Sys2Proof.Machine
end

