-- ==== Sys2Proof/Machine/Plan.lean ====
section
/-! DEFINITION. What validation looks at in a request: its class, register operands and configuration (R100 to R103),
the status it reports (R103, R300, R306) and the hazards it does not (R336 to R339). -/

namespace Sys2Proof.Machine

/-- The right-hand operand: a vector register group, the scalar port, a sign- or a zero-extended immediate (R73, R74). -/
inductive Rhs where
  | vec (vs1 : VReg)
  | scalar
  | simm (imm : Imm5)
  | uimm (imm : Imm5)
  deriving DecidableEq, Repr

/-- The `vs1` register, in form V only (R102). -/
def Rhs.reg : Rhs → Option VReg
  | .vec r => some r
  | .scalar | .simm _ | .uimm _ => none

/-- Operands of a two-source request, whatever its form (R73). -/
structure Args where
  me : Bool
  vd : VReg
  vs2 : VReg
  rhs : Rhs
  cfg : Cfg
  deriving DecidableEq, Repr

/-- Operands of a move, which has no `vs2` (R261). -/
structure MoveArgs where
  me : Bool
  vd : VReg
  rhs : Rhs
  cfg : Cfg
  deriving DecidableEq, Repr

/-- What validation and the hazard test see of a request (R102, R336). -/
structure Plan where
  cls : VClass
  vd : VReg
  vs1 : Option VReg
  vs2 : Option VReg
  cfg : Cfg
  /-- `reads_v0` of R336. -/
  readsV0 : Bool
  /-- the request is a `vslideup` or `vslide1up` (R336). -/
  slideUp : Bool
  deriving DecidableEq, Repr

/-- The operands of a form V request. -/
def argsVV (o : OpVV) : Args := ⟨o.me, o.vd, o.vs2, .vec o.vs1, o.cfg⟩

/-- The operands of a form X request. -/
def argsVX (o : OpVX) : Args := ⟨o.me, o.vd, o.vs2, .scalar, o.cfg⟩

/-- The operands of a form I request whose immediate is sign-extended (R74). -/
def argsVIs (o : OpVI) : Args := ⟨o.me, o.vd, o.vs2, .simm o.imm, o.cfg⟩

/-- The operands of a form I request whose immediate is zero-extended (R74). -/
def argsVIu (o : OpVI) : Args := ⟨o.me, o.vd, o.vs2, .uimm o.imm, o.cfg⟩

/-- The operands of a carry or borrow producer in form V; `me` is its row's (R243). -/
def argsCV (me : Bool) (o : OpCV) : Args := ⟨me, o.vd, o.vs2, .vec o.vs1, o.cfg⟩

/-- The operands of a carry or borrow producer in form X (R243). -/
def argsCX (me : Bool) (o : OpCX) : Args := ⟨me, o.vd, o.vs2, .scalar, o.cfg⟩

/-- The operands of a carry producer in form I (R243). -/
def argsCI (me : Bool) (o : OpCI) : Args := ⟨me, o.vd, o.vs2, .simm o.imm, o.cfg⟩

/-- The operands of `vmv.v.v`. -/
def argsMvV (o : OpMvV) : MoveArgs := ⟨o.me, o.vd, .vec o.vs1, o.cfg⟩

/-- The operands of `vmv.v.x`. -/
def argsMvX (o : OpMvX) : MoveArgs := ⟨o.me, o.vd, .scalar, o.cfg⟩

/-- The operands of `vmv.v.i`. -/
def argsMvI (o : OpMvI) : MoveArgs := ⟨o.me, o.vd, .simm o.imm, o.cfg⟩

/-- The plan of a request whose `me` bit is its mask enable (R76, R102). -/
def maskedPlan (k : VClass) (a : Args) : Plan := ⟨k, a.vd, a.rhs.reg, some a.vs2, a.cfg, a.me, false⟩

/-- The plan of `vadc`, `vsbc` and `vmerge`, which read `v0` whatever `me` is (R76, R336). -/
def carryPlan (a : Args) : Plan := ⟨.same, a.vd, a.rhs.reg, some a.vs2, a.cfg, true, false⟩

/-- The plan of an extension (R102). -/
def extPlan (f : ExtFactor) (o : OpExt) : Plan := ⟨.ext f, o.vd, none, some o.vs2, o.cfg, o.me, false⟩

/-- The plan of a move, which never reads `v0` (R76, R102). -/
def movePlan (a : MoveArgs) : Plan := ⟨.move, a.vd, a.rhs.reg, none, a.cfg, false, false⟩

/-- The plan of a slide: there is no `vs1` register (R102, R262); `up` for `vslideup` and `vslide1up`. -/
def slidePlan (up : Bool) (a : Args) : Plan := ⟨.slide, a.vd, none, some a.vs2, a.cfg, a.me, up⟩

/-- The plan of every instruction: the class column of R80, the operands of its row. -/
def planOf : Instr → Plan
  | .vaddVV o | .vsubVV o | .vandVV o | .vorVV o | .vxorVV o | .vsllVV o | .vsrlVV o | .vsraVV o | .vminuVV o
  | .vminVV o | .vmaxuVV o | .vmaxVV o | .vmulVV o | .vmulhVV o | .vmulhuVV o | .vmulhsuVV o | .vdivuVV o
  | .vdivVV o | .vremuVV o | .vremVV o | .vmaccVV o | .vnmsacVV o | .vmaddVV o | .vnmsubVV o | .vsadduVV o
  | .vsaddVV o | .vssubuVV o | .vssubVV o | .vaadduVV o | .vaaddVV o | .vasubuVV o | .vasubVV o => maskedPlan .same (argsVV o)
  | .vaddVX o | .vsubVX o | .vrsubVX o | .vandVX o | .vorVX o | .vxorVX o | .vsllVX o | .vsrlVX o | .vsraVX o
  | .vminuVX o | .vminVX o | .vmaxuVX o | .vmaxVX o | .vmulVX o | .vmulhVX o | .vmulhuVX o | .vmulhsuVX o
  | .vdivuVX o | .vdivVX o | .vremuVX o | .vremVX o | .vmaccVX o | .vnmsacVX o | .vmaddVX o | .vnmsubVX o
  | .vsadduVX o | .vsaddVX o | .vssubuVX o | .vssubVX o | .vaadduVX o | .vaaddVX o | .vasubuVX o | .vasubVX o => maskedPlan .same (argsVX o)
  | .vaddVI o | .vrsubVI o | .vandVI o | .vorVI o | .vxorVI o | .vsadduVI o | .vsaddVI o => maskedPlan .same (argsVIs o)
  | .vsllVI o | .vsrlVI o | .vsraVI o => maskedPlan .same (argsVIu o)
  | .vzextVf2 o | .vsextVf2 o => extPlan .vf2 o
  | .vzextVf4 o | .vsextVf4 o => extPlan .vf4 o
  | .vzextVf8 o | .vsextVf8 o => extPlan .vf8 o
  | .vwadduVV o | .vwaddVV o | .vwsubuVV o | .vwsubVV o | .vwmuluVV o | .vwmulVV o | .vwmulsuVV o | .vwmaccuVV o
  | .vwmaccVV o | .vwmaccsuVV o => maskedPlan .widen (argsVV o)
  | .vwadduVX o | .vwaddVX o | .vwsubuVX o | .vwsubVX o | .vwmuluVX o | .vwmulVX o | .vwmulsuVX o | .vwmaccuVX o
  | .vwmaccVX o | .vwmaccsuVX o | .vwmaccusVX o => maskedPlan .widen (argsVX o)
  | .vnsrlWV o | .vnsraWV o => maskedPlan .narrow (argsVV o)
  | .vnsrlWX o | .vnsraWX o => maskedPlan .narrow (argsVX o)
  | .vnsrlWI o | .vnsraWI o => maskedPlan .narrow (argsVIu o)
  | .vmseqVV o | .vmsneVV o | .vmsltuVV o | .vmsltVV o | .vmsleuVV o | .vmsleVV o | .vmsgtuVV o | .vmsgtVV o
  | .vmsgeuVV o | .vmsgeVV o => maskedPlan .maskDst (argsVV o)
  | .vmseqVX o | .vmsneVX o | .vmsltuVX o | .vmsltVX o | .vmsleuVX o | .vmsleVX o | .vmsgtuVX o | .vmsgtVX o
  | .vmsgeuVX o | .vmsgeVX o => maskedPlan .maskDst (argsVX o)
  | .vmseqVI o | .vmsneVI o | .vmsltuVI o | .vmsltVI o | .vmsleuVI o | .vmsleVI o | .vmsgtuVI o | .vmsgtVI o
  | .vmsgeuVI o | .vmsgeVI o => maskedPlan .maskDst (argsVIs o)
  | .vadcVVM o | .vsbcVVM o | .vmergeVVM o => carryPlan (argsVV o)
  | .vadcVXM o | .vsbcVXM o | .vmergeVXM o => carryPlan (argsVX o)
  | .vadcVIM o | .vmergeVIM o => carryPlan (argsVIs o)
  | .vmadcVV o | .vmsbcVV o => maskedPlan .maskDst (argsCV false o)
  | .vmadcVVM o | .vmsbcVVM o => maskedPlan .maskDst (argsCV true o)
  | .vmadcVX o | .vmsbcVX o => maskedPlan .maskDst (argsCX false o)
  | .vmadcVXM o | .vmsbcVXM o => maskedPlan .maskDst (argsCX true o)
  | .vmadcVI o => maskedPlan .maskDst (argsCI false o)
  | .vmadcVIM o => maskedPlan .maskDst (argsCI true o)
  | .vmvVV o => movePlan (argsMvV o)
  | .vmvVX o => movePlan (argsMvX o)
  | .vmvVI o => movePlan (argsMvI o)
  | .vslideupVX o | .vslide1upVX o => slidePlan true (argsVX o)
  | .vslideupVI o => slidePlan true (argsVIu o)
  | .vslidedownVX o | .vslide1downVX o => slidePlan false (argsVX o)
  | .vslidedownVI o => slidePlan false (argsVIu o)

/-- `EMUL(vs1)`: in every class that has a `vs1` it is `LMUL` (R102). -/
def vs1Aligned (p : Plan) : Bool :=
  match p.vs1 with
  | some r => aligned r (lmul p.cfg)
  | none => true

/-- The `vs2` register is aligned to its effective multiplicity, where the class has one (R102). -/
def vs2Aligned (p : Plan) : Bool :=
  match p.vs2, vs2Shape p.cls p.cfg with
  | some r, some sh => aligned r sh.emul
  | _, _ => true

/-- The `vd` register is aligned to its effective multiplicity, where the class checks it (R102). -/
def vdAligned (p : Plan) : Bool :=
  match vdShape p.cls p.cfg with
  | some sh => aligned p.vd sh.emul
  | none => true

/-- The widening overlap rule for `vs1`: class WIDEN, form V only (R53, R102). -/
def vs1OverlapOk (p : Plan) : Bool :=
  match p.cls, p.vs1 with
  | .widen, some r => widenOk p.vd r (lmul p.cfg) ((lmul p.cfg).times 2)
  | _, _ => true

/-- The widening overlap rule for `vs2`: classes WIDEN and EXT (R53, R55, R102). -/
def vs2WidenOk (p : Plan) : Bool :=
  match p.cls, p.vs2 with
  | .widen, some r => widenOk p.vd r (lmul p.cfg) ((lmul p.cfg).times 2)
  | .ext f, some r => widenOk p.vd r ((lmul p.cfg).over f.val) (lmul p.cfg)
  | _, _ => true

/-- The narrowing overlap rule: class NARROW (R54, R102). -/
def vs2NarrowOk (p : Plan) : Bool :=
  match p.cls, p.vs2 with
  | .narrow, some r => narrowOk p.vd r (lmul p.cfg) ((lmul p.cfg).times 2)
  | _, _ => true

/-- Validation: the first condition that fails, in the order of R103 and R306, gives the status. -/
def validate (p : Plan) : Status :=
  if !vs1Aligned p then .src1VecIll
  else if !vs2Aligned p then .src2VecIll
  else if !vdAligned p then .dstVecIll
  else if !vs1OverlapOk p then .wideningOverlapVdVs1Ill
  else if !vs2WidenOk p then .wideningOverlapVdVs2Ill
  else if !vs2NarrowOk p then .narrowingOverlapVdVs2Ill
  else .noExcept

/-- `vs < vd < vs + LMUL`: the mask destination is a higher register of the source group (R339). -/
def insideGroup (vd vs : VReg) (m : Mult) : Bool := decide (vs.val < vd.val) && decide (vd.val < vs.val + m.nreg)

/-- A mask destination at a higher register of a source group, possible when `LMUL >= 2` (R336, R339). -/
def maskInsideSource (p : Plan) : Bool :=
  decide (p.cls = .maskDst) && (decide (2 * (lmul p.cfg).den ≤ (lmul p.cfg).num) &&
    (p.vs2.toList ++ p.vs1.toList).any fun r => insideGroup p.vd r (lmul p.cfg))

/-- `hazardous(REQ)` of R336, the hazard named. -/
def hazard (p : Plan) : Option Hazard :=
  if p.cls ≠ .maskDst ∧ p.readsV0 = true ∧ p.vd.val = 0 then some .v0Destination
  else if p.slideUp = true ∧ p.vs2 = some p.vd then some .slideUpOntoSource
  else if maskInsideSource p then some .maskInsideSource
  else none

end Sys2Proof.Machine
end

