-- ==== Sys2Proof/Machine/Ops.lean ====
section
/-! DEFINITION. The protocol every request follows (R100, R314): admission, validation, the response, the loops over
elements and over mask bits (R109 to R112); and the host's own operations, host port and reset (R29, R330, R331). -/

namespace Sys2Proof.Machine

/-- What a meaning answers. -/
abbrev Result := Host.Outcome State Fault Refusal

/-- The 3-bit code of a status on the response port (R300). -/
def statusCode : Status → BitVec 3
  | .noExcept => 0
  | .src1VecIll => 1
  | .src2VecIll => 2
  | .dstVecIll => 3
  | .wideningOverlapVdVs1Ill => 4
  | .wideningOverlapVdVs2Ill => 5
  | .narrowingOverlapVdVs2Ill => 6

/-- Puts a response on the response port (R30). -/
def State.respond (s : State) (r : Response) : State := { s with response := some r }

/-- `raise C`: the request ends with that status, `SAT = 0`, the register file as it was (R303). This is all the block
does in place of taking an exception; there is no return from one (R309, R310). -/
def State.raise (s : State) (c : Status) : State := s.respond ⟨c, false⟩

/-- A successful end: the new register file, `NO_EXCEPT` and the saturation flag (R114). -/
def State.succeed (s : State) (out : Memory × Bool) : State := { s with vrf := out.1 }.respond ⟨.noExcept, out.2⟩

/-- One request (R100, R314): refuse what is outside the admitted domain, report what validation finds, refuse what is
hazardous, else carry out `body`, which gives the new register file and the saturation flag. -/
def runRequest (p : Plan) (body : Memory → Memory × Bool) (s : State) : Result :=
  match cfgError p.cls p.cfg with
  | some e => .refused (.notAdmitted e)
  | none =>
    if vlmax s.params p.cfg < s.port.vl then .refused .vectorLength
    else if validate p ≠ .noExcept then .next (s.raise (validate p))
    else match hazard p with
      | some h => .refused (.hazardous h)
      | none => .next (s.succeed (body s.vrf))

/-- `for i = start, start+1, ...`, `count` iterations in ascending order (R109). -/
def forRange {α : Type} (body : Nat → α → α) : Nat → Nat → α → α
  | _, 0, x => x
  | i, n + 1, x => forRange body (i + 1) n (body i x)

/-- `active(i)` (R110): masking is off, or the mask bit of element `i` in `v0` is 1. -/
def active (vlenb : Nat) (me : Bool) (m : Memory) (i : Nat) : Bool := !me || readBit vlenb m 0 i

/-- One iteration of the element loop (R109): all reads of element `i` before its one write. -/
def elemStep (vlenb : Nat) (vd : VReg) (wd : Nat) (gate : Memory → Nat → Bool) (val : Memory → Nat → BitVec (8 * wd) × Bool)
    (i : Nat) (x : Memory × Bool) : Memory × Bool :=
  if gate x.1 i then (writeElem vlenb x.1 vd i wd (val x.1 i).1, x.2 || (val x.1 i).2) else x

/-- The element loop over `[lo, hi)` (R109); the flag is the OR of the written elements' saturation (R281). -/
def elemLoop (vlenb : Nat) (vd : VReg) (wd : Nat) (gate : Memory → Nat → Bool) (val : Memory → Nat → BitVec (8 * wd) × Bool)
    (lo hi : Nat) (m : Memory) : Memory × Bool :=
  forRange (elemStep vlenb vd wd gate val) lo (hi - lo) (m, false)

/-- One iteration of the mask loop (R112): bit `i` is read before it is written. -/
def bitStep (vlenb : Nat) (vd : VReg) (gate bit : Memory → Nat → Bool) (i : Nat) (m : Memory) : Memory :=
  if gate m i then writeBit vlenb m vd i (bit m i) else m

/-- The mask loop over `[lo, hi)` (R112). -/
def bitLoop (vlenb : Nat) (vd : VReg) (gate bit : Memory → Nat → Bool) (lo hi : Nat) (m : Memory) : Memory × Bool :=
  (forRange (bitStep vlenb vd gate bit) lo (hi - lo) m, false)

/-- A request that writes elements, from element `lo` on. -/
def elemRequest (p : Plan) (wd lo : Nat) (gate : Memory → Nat → Bool) (val : Memory → Nat → BitVec (8 * wd) × Bool)
    (s : State) : Result :=
  runRequest p (elemLoop s.params.vlenb p.vd wd gate val lo s.port.vl) s

/-- A request that writes mask bits, from bit `VSTART` on. -/
def bitRequest (p : Plan) (gate bit : Memory → Nat → Bool) (s : State) : Result :=
  runRequest p (bitLoop s.params.vlenb p.vd gate bit s.port.vstart s.port.vl) s

/-! The host's operations. -/

/-- `HostRead(a, n)` (R29): the bytes come back on the host port; outside the byte space it faults. -/
def hostRead (a n : Nat) (s : State) : Result :=
  if a + n ≤ s.params.fileBytes then .next { s with readData := some (Memory.readBytes s.vrf a n) }
  else .fault (.hostPortOutOfRange a n)

/-- `HostWrite(a, n, bytes)` (R29); outside the byte space it faults. -/
def hostWrite (a : Nat) (bytes : List Byte) (s : State) : Result :=
  if a + bytes.length ≤ s.params.fileBytes then .next { s with vrf := Memory.writeBytes s.vrf a bytes }
  else .fault (.hostPortOutOfRange a bytes.length)

/-- The reset input (R330): idle, no response pending; the register file is not written. The host port's answer is
withdrawn too (DESIGN CHOICE, log 4). -/
def State.resetBlock (s : State) : State := { s with response := none, readData := none }

/-- The multiplicity of the destination group of a request: one register for a mask destination (R49, R102). -/
def destMult (p : Plan) : Mult :=
  match vdShape p.cls p.cfg with
  | some sh => sh.emul
  | none => ⟨1, 1⟩

/-- Fills `n` bytes from `a` with the free bytes of abandonment number `k` (U17). -/
def scramble (k a n : Nat) (m : Memory) : Memory := forRange (fun b x => Memory.write x b (Config.abandonedByte k b)) a n m

/-- The registers of the destination group of an abandoned request take free values; every other byte stays (R331, U17). -/
def abandonGroup (p : Plan) (s : State) : State :=
  { s with
    vrf := scramble s.freeCount (p.vd.val * s.params.vlenb) ((destMult p).nreg * s.params.vlenb) s.vrf
    freeCount := s.freeCount + 1 }

end Sys2Proof.Machine
end

