-- ==== Sys2Proof/Machine/Operands.lean ====
section
/-! DEFINITION. Operand fetch (R73, R74, R78, R107, R108) and the shared operation of each kind of request: a meaning is
one of these with its element function or bit predicate. -/

namespace Sys2Proof.Machine

/-- `sx = sext_64(RS1[XLEN-1:0])` (R78). -/
def scalar64 (s : State) : BitVec 64 :=
  match s.params.xlen with
  | .x64 => s.port.rs1
  | .x32 => (s.port.rs1.setWidth 32).signExtend 64

/-- The scalar as the operand of a `W`-bit element, `sx[W-1:0]` (R78). -/
def scalarAt (s : State) (W : Nat) : BitVec W := (scalar64 s).setWidth W

/-- The right-hand operand of element `i`, `w` bytes wide (R74, R107). -/
def rhsValue (s : State) (m : Memory) (r : Rhs) (i w : Nat) : BitVec (8 * w) :=
  match r with
  | .vec v => readElem s.params.vlenb m v i w
  | .scalar => scalarAt s (8 * w)
  | .simm imm => imm.signExtend (8 * w)
  | .uimm imm => imm.setWidth (8 * w)

/-- `OFFSET` of a slide in form X: `U_XLEN(RS1[XLEN-1:0])`, not truncated to `SEW` (R262). -/
def scalarOffset (s : State) : Nat := s.port.rs1.toNat % 2 ^ s.params.xlen.bits

/-- A masked operation of class SAME (R109, R130): `f` takes the left operand, the right operand and the old destination
element, and gives the result and whether it saturated. -/
def sameOp (f : (W : Nat) → BitVec W → BitVec W → BitVec W → BitVec W × Bool) (a : Args) (s : State) : Result :=
  elemRequest (maskedPlan .same a) (sewb a.cfg.sew) s.port.vstart (active s.params.vlenb a.me)
    (fun m i => f (8 * sewb a.cfg.sew) (readElem s.params.vlenb m a.vs2 i (sewb a.cfg.sew))
      (rhsValue s m a.rhs i (sewb a.cfg.sew)) (readElem s.params.vlenb m a.vd i (sewb a.cfg.sew))) s

/-- A masked operation of two operands that cannot saturate (R130). -/
def plainOp (f : (W : Nat) → BitVec W → BitVec W → BitVec W) (a : Args) (s : State) : Result :=
  sameOp (fun W x y _ => (f W x y, false)) a s

/-- A single-width multiply-accumulate: `f` also takes the old destination element (R190). -/
def macOp (f : (W : Nat) → BitVec W → BitVec W → BitVec W → BitVec W) (a : Args) (s : State) : Result :=
  sameOp (fun W x y d => (f W x y d, false)) a s

/-- A saturating operation (R280, R281). -/
def satOp (f : (W : Nat) → BitVec W → BitVec W → BitVec W × Bool) (a : Args) (s : State) : Result :=
  sameOp (fun W x y _ => f W x y) a s

/-- A widening operation, class WIDEN: sources `SEW`, destination `2*SEW` (R160); `f` also takes the old destination
element, which the widening multiply-accumulates add to (R190). -/
def wideMacOp (f : (W V : Nat) → BitVec W → BitVec W → BitVec V → BitVec V) (a : Args) (s : State) : Result :=
  elemRequest (maskedPlan .widen a) (2 * sewb a.cfg.sew) s.port.vstart (active s.params.vlenb a.me)
    (fun m i => (f (8 * sewb a.cfg.sew) (8 * (2 * sewb a.cfg.sew)) (readElem s.params.vlenb m a.vs2 i (sewb a.cfg.sew))
      (rhsValue s m a.rhs i (sewb a.cfg.sew)) (readElem s.params.vlenb m a.vd i (2 * sewb a.cfg.sew)), false)) s

/-- A widening operation of two operands (R160). -/
def wideOp (f : (W V : Nat) → BitVec W → BitVec W → BitVec V) (a : Args) (s : State) : Result :=
  wideMacOp (fun W V x y _ => f W V x y) a s

/-- A narrowing operation, class NARROW: left operand `2*SEW`, right operand and destination `SEW` (R160). -/
def narrowOp (f : (V W : Nat) → BitVec V → BitVec W → BitVec W) (a : Args) (s : State) : Result :=
  elemRequest (maskedPlan .narrow a) (sewb a.cfg.sew) s.port.vstart (active s.params.vlenb a.me)
    (fun m i => (f (8 * (2 * sewb a.cfg.sew)) (8 * sewb a.cfg.sew) (readElem s.params.vlenb m a.vs2 i (2 * sewb a.cfg.sew))
      (rhsValue s m a.rhs i (sewb a.cfg.sew)), false)) s

/-- An extension, class EXTf: source `SEW/f`, destination `SEW` (R160). -/
def extOp (k : ExtFactor) (f : (V W : Nat) → BitVec V → BitVec W) (o : OpExt) (s : State) : Result :=
  elemRequest (extPlan k o) (sewb o.cfg.sew) s.port.vstart (active s.params.vlenb o.me)
    (fun m i => (f (8 * (sewb o.cfg.sew / k.val)) (8 * sewb o.cfg.sew)
      (readElem s.params.vlenb m o.vs2 i (sewb o.cfg.sew / k.val)), false)) s

/-- A comparison, class MASKDST: bit `i` of `vd` is set or cleared for every active `i` (R112, R230). -/
def compareOp (p : (W : Nat) → BitVec W → BitVec W → Bool) (a : Args) (s : State) : Result :=
  bitRequest (maskedPlan .maskDst a) (active s.params.vlenb a.me)
    (fun m i => p (8 * sewb a.cfg.sew) (readElem s.params.vlenb m a.vs2 i (sewb a.cfg.sew))
      (rhsValue s m a.rhs i (sewb a.cfg.sew))) s

/-- A carry or borrow producer, class MASKDST: `me` selects the carry-in mode and gates nothing (R243, R244). -/
def carryProducerOp (p : (W : Nat) → BitVec W → BitVec W → Bool → Bool) (a : Args) (s : State) : Result :=
  bitRequest (maskedPlan .maskDst a) (fun _ _ => true)
    (fun m i => p (8 * sewb a.cfg.sew) (readElem s.params.vlenb m a.vs2 i (sewb a.cfg.sew))
      (rhsValue s m a.rhs i (sewb a.cfg.sew)) (a.me && readBit s.params.vlenb m 0 i)) s

/-- Add with carry and subtract with borrow: bit `i` of `v0` is an operand, `me` is ignored (R241, R242). -/
def carryInOp (f : (W : Nat) → BitVec W → BitVec W → Bool → BitVec W) (a : Args) (s : State) : Result :=
  elemRequest (carryPlan a) (sewb a.cfg.sew) s.port.vstart (fun _ _ => true)
    (fun m i => (f (8 * sewb a.cfg.sew) (readElem s.params.vlenb m a.vs2 i (sewb a.cfg.sew))
      (rhsValue s m a.rhs i (sewb a.cfg.sew)) (readBit s.params.vlenb m 0 i), false)) s

/-- Merge: over all of `[0, VL)`, `VSTART` and `me` ignored (R260). -/
def mergeOp (f : (W : Nat) → BitVec W → BitVec W → Bool → BitVec W) (a : Args) (s : State) : Result :=
  elemRequest (carryPlan a) (sewb a.cfg.sew) 0 (fun _ _ => true)
    (fun m i => (f (8 * sewb a.cfg.sew) (readElem s.params.vlenb m a.vs2 i (sewb a.cfg.sew))
      (rhsValue s m a.rhs i (sewb a.cfg.sew)) (readBit s.params.vlenb m 0 i), false)) s

/-- Move: never masked, `VSTART` gates (R261). -/
def moveOp (a : MoveArgs) (s : State) : Result :=
  elemRequest (movePlan a) (sewb a.cfg.sew) s.port.vstart (fun _ _ => true)
    (fun m i => (rhsValue s m a.rhs i (sewb a.cfg.sew), false)) s

/-- A slide: from element `lo` on, element `i` of the destination takes `src m i` (R262). -/
def slideOp (up : Bool) (lo : Nat) (a : Args) (src : Memory → Nat → BitVec (8 * sewb a.cfg.sew)) (s : State) : Result :=
  elemRequest (slidePlan up a) (sewb a.cfg.sew) lo (active s.params.vlenb a.me) (fun m i => (src m i, false)) s

/-- Slide-up by `offset`: the first `offset` elements are not written (R263). -/
def slideUpOp (offset : Nat) (a : Args) (s : State) : Result :=
  slideOp true (max s.port.vstart offset) a
    (fun m i => readElem s.params.vlenb m a.vs2 (i - offset) (sewb a.cfg.sew)) s

/-- Slide-down by `offset`: positions from `VLMAX` on read as zero (R264). -/
def slideDownOp (offset : Nat) (a : Args) (s : State) : Result :=
  slideOp false s.port.vstart a
    (fun m i => if i + offset < vlmax s.params a.cfg then readElem s.params.vlenb m a.vs2 (i + offset) (sewb a.cfg.sew)
      else 0) s

/-- Slide-up by one, the scalar entering at element 0 (R265). -/
def slide1UpOp (a : Args) (s : State) : Result :=
  slideOp true s.port.vstart a
    (fun m i => if i = 0 then scalarAt s (8 * sewb a.cfg.sew)
      else readElem s.params.vlenb m a.vs2 (i - 1) (sewb a.cfg.sew)) s

/-- Slide-down by one, the scalar entering at element `VL - 1` (R266). -/
def slide1DownOp (a : Args) (s : State) : Result :=
  slideOp false s.port.vstart a
    (fun m i => if i + 1 = s.port.vl then scalarAt s (8 * sewb a.cfg.sew)
      else readElem s.params.vlenb m a.vs2 (i + 1) (sewb a.cfg.sew)) s

end Sys2Proof.Machine
end

