-- ==== Sys2Proof/Machine/CompareCarry.lean ====
section
/-! DEFINITION. Comparisons to mask bits, add with carry, subtract with borrow, carry and borrow producers (R230 to R244). -/

namespace Sys2Proof.Machine

/-- The bit predicate of `vmseq`: `a == b` (R231). -/
def vmseqBit (W : Nat) (a b : BitVec W) : Bool :=
  decide (a = b)

/-- `vmseq.vv` (R231, op 0x20, form V). -/
def execVmseqVV (o : OpVV) (s : State) : Result := compareOp vmseqBit (argsVV o) s

/-- `vmseq.vx` (R231, op 0x20, form X). -/
def execVmseqVX (o : OpVX) (s : State) : Result := compareOp vmseqBit (argsVX o) s

/-- `vmseq.vi` (R231, op 0x20, form I). -/
def execVmseqVI (o : OpVI) (s : State) : Result := compareOp vmseqBit (argsVIs o) s

/-- The bit predicate of `vmsne`: `a != b` (R232). -/
def vmsneBit (W : Nat) (a b : BitVec W) : Bool :=
  decide (a ≠ b)

/-- `vmsne.vv` (R232, op 0x21, form V). -/
def execVmsneVV (o : OpVV) (s : State) : Result := compareOp vmsneBit (argsVV o) s

/-- `vmsne.vx` (R232, op 0x21, form X). -/
def execVmsneVX (o : OpVX) (s : State) : Result := compareOp vmsneBit (argsVX o) s

/-- `vmsne.vi` (R232, op 0x21, form I). -/
def execVmsneVI (o : OpVI) (s : State) : Result := compareOp vmsneBit (argsVIs o) s

/-- The bit predicate of `vmsltu`: `U(a) < U(b)` (R233). -/
def vmsltuBit (W : Nat) (a b : BitVec W) : Bool :=
  decide (U a < U b)

/-- `vmsltu.vv` (R233, op 0x22, form V). -/
def execVmsltuVV (o : OpVV) (s : State) : Result := compareOp vmsltuBit (argsVV o) s

/-- `vmsltu.vx` (R233, op 0x22, form X). -/
def execVmsltuVX (o : OpVX) (s : State) : Result := compareOp vmsltuBit (argsVX o) s

/-- `vmsltu.vi` (R233, op 0x22, form I). -/
def execVmsltuVI (o : OpVI) (s : State) : Result := compareOp vmsltuBit (argsVIs o) s

/-- The bit predicate of `vmslt`: `S(a) < S(b)` (R234). -/
def vmsltBit (W : Nat) (a b : BitVec W) : Bool :=
  decide (S a < S b)

/-- `vmslt.vv` (R234, op 0x23, form V). -/
def execVmsltVV (o : OpVV) (s : State) : Result := compareOp vmsltBit (argsVV o) s

/-- `vmslt.vx` (R234, op 0x23, form X). -/
def execVmsltVX (o : OpVX) (s : State) : Result := compareOp vmsltBit (argsVX o) s

/-- `vmslt.vi` (R234, op 0x23, form I). -/
def execVmsltVI (o : OpVI) (s : State) : Result := compareOp vmsltBit (argsVIs o) s

/-- The bit predicate of `vmsleu`: `U(a) <= U(b)` (R235). -/
def vmsleuBit (W : Nat) (a b : BitVec W) : Bool :=
  decide (U a ≤ U b)

/-- `vmsleu.vv` (R235, op 0x24, form V). -/
def execVmsleuVV (o : OpVV) (s : State) : Result := compareOp vmsleuBit (argsVV o) s

/-- `vmsleu.vx` (R235, op 0x24, form X). -/
def execVmsleuVX (o : OpVX) (s : State) : Result := compareOp vmsleuBit (argsVX o) s

/-- `vmsleu.vi` (R235, op 0x24, form I). -/
def execVmsleuVI (o : OpVI) (s : State) : Result := compareOp vmsleuBit (argsVIs o) s

/-- The bit predicate of `vmsle`: `S(a) <= S(b)` (R236). -/
def vmsleBit (W : Nat) (a b : BitVec W) : Bool :=
  decide (S a ≤ S b)

/-- `vmsle.vv` (R236, op 0x25, form V). -/
def execVmsleVV (o : OpVV) (s : State) : Result := compareOp vmsleBit (argsVV o) s

/-- `vmsle.vx` (R236, op 0x25, form X). -/
def execVmsleVX (o : OpVX) (s : State) : Result := compareOp vmsleBit (argsVX o) s

/-- `vmsle.vi` (R236, op 0x25, form I). -/
def execVmsleVI (o : OpVI) (s : State) : Result := compareOp vmsleBit (argsVIs o) s

/-- The bit predicate of `vmsgtu`: `U(a) > U(b)` (R237). -/
def vmsgtuBit (W : Nat) (a b : BitVec W) : Bool :=
  decide (U b < U a)

/-- `vmsgtu.vv` (R237, op 0x26, form V). -/
def execVmsgtuVV (o : OpVV) (s : State) : Result := compareOp vmsgtuBit (argsVV o) s

/-- `vmsgtu.vx` (R237, op 0x26, form X). -/
def execVmsgtuVX (o : OpVX) (s : State) : Result := compareOp vmsgtuBit (argsVX o) s

/-- `vmsgtu.vi` (R237, op 0x26, form I). -/
def execVmsgtuVI (o : OpVI) (s : State) : Result := compareOp vmsgtuBit (argsVIs o) s

/-- The bit predicate of `vmsgt`: `S(a) > S(b)` (R238). -/
def vmsgtBit (W : Nat) (a b : BitVec W) : Bool :=
  decide (S b < S a)

/-- `vmsgt.vv` (R238, op 0x27, form V). -/
def execVmsgtVV (o : OpVV) (s : State) : Result := compareOp vmsgtBit (argsVV o) s

/-- `vmsgt.vx` (R238, op 0x27, form X). -/
def execVmsgtVX (o : OpVX) (s : State) : Result := compareOp vmsgtBit (argsVX o) s

/-- `vmsgt.vi` (R238, op 0x27, form I). -/
def execVmsgtVI (o : OpVI) (s : State) : Result := compareOp vmsgtBit (argsVIs o) s

/-- The bit predicate of `vmsgeu`: `U(a) >= U(b)` (R239). -/
def vmsgeuBit (W : Nat) (a b : BitVec W) : Bool :=
  decide (U b ≤ U a)

/-- `vmsgeu.vv` (R239, op 0x28, form V). -/
def execVmsgeuVV (o : OpVV) (s : State) : Result := compareOp vmsgeuBit (argsVV o) s

/-- `vmsgeu.vx` (R239, op 0x28, form X). -/
def execVmsgeuVX (o : OpVX) (s : State) : Result := compareOp vmsgeuBit (argsVX o) s

/-- `vmsgeu.vi` (R239, op 0x28, form I). -/
def execVmsgeuVI (o : OpVI) (s : State) : Result := compareOp vmsgeuBit (argsVIs o) s

/-- The bit predicate of `vmsge`: `S(a) >= S(b)` (R240). -/
def vmsgeBit (W : Nat) (a b : BitVec W) : Bool :=
  decide (S b ≤ S a)

/-- `vmsge.vv` (R240, op 0x29, form V). -/
def execVmsgeVV (o : OpVV) (s : State) : Result := compareOp vmsgeBit (argsVV o) s

/-- `vmsge.vx` (R240, op 0x29, form X). -/
def execVmsgeVX (o : OpVX) (s : State) : Result := compareOp vmsgeBit (argsVX o) s

/-- `vmsge.vi` (R240, op 0x29, form I). -/
def execVmsgeVI (o : OpVI) (s : State) : Result := compareOp vmsgeBit (argsVIs o) s

/-- The element function of `vadc`: `trunc_SEW(U(a) + U(b) + c)` (R241). -/
def vadcElem (W : Nat) (a b : BitVec W) (c : Bool) : BitVec W :=
  trunc W (U a + U b + (c.toNat : Int))

/-- `vadc.vvm` (R241, op 0x50, form V). -/
def execVadcVVM (o : OpVV) (s : State) : Result := carryInOp vadcElem (argsVV o) s

/-- `vadc.vxm` (R241, op 0x50, form X). -/
def execVadcVXM (o : OpVX) (s : State) : Result := carryInOp vadcElem (argsVX o) s

/-- `vadc.vim` (R241, op 0x50, form I). -/
def execVadcVIM (o : OpVI) (s : State) : Result := carryInOp vadcElem (argsVIs o) s

/-- The element function of `vsbc`: `trunc_SEW(U(a) - U(b) - c)` (R242). -/
def vsbcElem (W : Nat) (a b : BitVec W) (c : Bool) : BitVec W :=
  trunc W (U a - U b - (c.toNat : Int))

/-- `vsbc.vvm` (R242, op 0x51, form V). -/
def execVsbcVVM (o : OpVV) (s : State) : Result := carryInOp vsbcElem (argsVV o) s

/-- `vsbc.vxm` (R242, op 0x51, form X). -/
def execVsbcVXM (o : OpVX) (s : State) : Result := carryInOp vsbcElem (argsVX o) s

/-- The bit predicate of `vmadc`: 1 iff `U(a) + U(b) + c >= 2^SEW` (R243). -/
def vmadcBit (W : Nat) (a b : BitVec W) (c : Bool) : Bool :=
  carryOut W a b c

/-- `vmadc.vv` (R243, op 0x52, form V). -/
def execVmadcVV (o : OpCV) (s : State) : Result := carryProducerOp vmadcBit (argsCV false o) s

/-- `vmadc.vvm` (R243, op 0x52, form V). -/
def execVmadcVVM (o : OpCV) (s : State) : Result := carryProducerOp vmadcBit (argsCV true o) s

/-- `vmadc.vx` (R243, op 0x52, form X). -/
def execVmadcVX (o : OpCX) (s : State) : Result := carryProducerOp vmadcBit (argsCX false o) s

/-- `vmadc.vxm` (R243, op 0x52, form X). -/
def execVmadcVXM (o : OpCX) (s : State) : Result := carryProducerOp vmadcBit (argsCX true o) s

/-- `vmadc.vi` (R243, op 0x52, form I). -/
def execVmadcVI (o : OpCI) (s : State) : Result := carryProducerOp vmadcBit (argsCI false o) s

/-- `vmadc.vim` (R243, op 0x52, form I). -/
def execVmadcVIM (o : OpCI) (s : State) : Result := carryProducerOp vmadcBit (argsCI true o) s

/-- The bit predicate of `vmsbc`: 1 iff `U(a) < U(b) + c` (R244). -/
def vmsbcBit (W : Nat) (a b : BitVec W) (c : Bool) : Bool :=
  borrowOut W a b c

/-- `vmsbc.vv` (R244, op 0x53, form V). -/
def execVmsbcVV (o : OpCV) (s : State) : Result := carryProducerOp vmsbcBit (argsCV false o) s

/-- `vmsbc.vvm` (R244, op 0x53, form V). -/
def execVmsbcVVM (o : OpCV) (s : State) : Result := carryProducerOp vmsbcBit (argsCV true o) s

/-- `vmsbc.vx` (R244, op 0x53, form X). -/
def execVmsbcVX (o : OpCX) (s : State) : Result := carryProducerOp vmsbcBit (argsCX false o) s

/-- `vmsbc.vxm` (R244, op 0x53, form X). -/
def execVmsbcVXM (o : OpCX) (s : State) : Result := carryProducerOp vmsbcBit (argsCX true o) s

end Sys2Proof.Machine
end

