-- ==== Sys2Proof/Machine/FixedPoint.lean ====
section
/-! DEFINITION. Saturating and averaging operations (R280 to R290). -/

namespace Sys2Proof.Machine

/-- The element function of `vsaddu`: `clampu(U(a) + U(b))` (R282). -/
def vsadduElem (W : Nat) (a b : BitVec W) : BitVec W × Bool :=
  saturateU W (U a + U b)

/-- `vsaddu.vv` (R282, op 0x58, form V). -/
def execVsadduVV (o : OpVV) (s : State) : Result := satOp vsadduElem (argsVV o) s

/-- `vsaddu.vx` (R282, op 0x58, form X). -/
def execVsadduVX (o : OpVX) (s : State) : Result := satOp vsadduElem (argsVX o) s

/-- `vsaddu.vi` (R282, op 0x58, form I). -/
def execVsadduVI (o : OpVI) (s : State) : Result := satOp vsadduElem (argsVIs o) s

/-- The element function of `vsadd`: `clamps(S(a) + S(b))` (R283). -/
def vsaddElem (W : Nat) (a b : BitVec W) : BitVec W × Bool :=
  saturateS W (S a + S b)

/-- `vsadd.vv` (R283, op 0x59, form V). -/
def execVsaddVV (o : OpVV) (s : State) : Result := satOp vsaddElem (argsVV o) s

/-- `vsadd.vx` (R283, op 0x59, form X). -/
def execVsaddVX (o : OpVX) (s : State) : Result := satOp vsaddElem (argsVX o) s

/-- `vsadd.vi` (R283, op 0x59, form I). -/
def execVsaddVI (o : OpVI) (s : State) : Result := satOp vsaddElem (argsVIs o) s

/-- The element function of `vssubu`: `clampu(U(a) - U(b))` (R284). -/
def vssubuElem (W : Nat) (a b : BitVec W) : BitVec W × Bool :=
  saturateU W (U a - U b)

/-- `vssubu.vv` (R284, op 0x5A, form V). -/
def execVssubuVV (o : OpVV) (s : State) : Result := satOp vssubuElem (argsVV o) s

/-- `vssubu.vx` (R284, op 0x5A, form X). -/
def execVssubuVX (o : OpVX) (s : State) : Result := satOp vssubuElem (argsVX o) s

/-- The element function of `vssub`: `clamps(S(a) - S(b))` (R285). -/
def vssubElem (W : Nat) (a b : BitVec W) : BitVec W × Bool :=
  saturateS W (S a - S b)

/-- `vssub.vv` (R285, op 0x5B, form V). -/
def execVssubVV (o : OpVV) (s : State) : Result := satOp vssubElem (argsVV o) s

/-- `vssub.vx` (R285, op 0x5B, form X). -/
def execVssubVX (o : OpVX) (s : State) : Result := satOp vssubElem (argsVX o) s

/-- The element function of `vaaddu`: `avg(U(a) + U(b))` (R287). -/
def vaadduElem (mode : RoundMode) (W : Nat) (a b : BitVec W) : BitVec W :=
  trunc W (average mode (U a + U b))

/-- `vaaddu.vv` (R287, op 0x5C, form V). -/
def execVaadduVV (o : OpVV) (s : State) : Result := plainOp (vaadduElem o.cfg.vxrm) (argsVV o) s

/-- `vaaddu.vx` (R287, op 0x5C, form X). -/
def execVaadduVX (o : OpVX) (s : State) : Result := plainOp (vaadduElem o.cfg.vxrm) (argsVX o) s

/-- The element function of `vaadd`: `avg(S(a) + S(b))` (R288). -/
def vaaddElem (mode : RoundMode) (W : Nat) (a b : BitVec W) : BitVec W :=
  trunc W (average mode (S a + S b))

/-- `vaadd.vv` (R288, op 0x5D, form V). -/
def execVaaddVV (o : OpVV) (s : State) : Result := plainOp (vaaddElem o.cfg.vxrm) (argsVV o) s

/-- `vaadd.vx` (R288, op 0x5D, form X). -/
def execVaaddVX (o : OpVX) (s : State) : Result := plainOp (vaaddElem o.cfg.vxrm) (argsVX o) s

/-- The element function of `vasubu`: `avg(U(a) - U(b))` (R289). -/
def vasubuElem (mode : RoundMode) (W : Nat) (a b : BitVec W) : BitVec W :=
  trunc W (average mode (U a - U b))

/-- `vasubu.vv` (R289, op 0x5E, form V). -/
def execVasubuVV (o : OpVV) (s : State) : Result := plainOp (vasubuElem o.cfg.vxrm) (argsVV o) s

/-- `vasubu.vx` (R289, op 0x5E, form X). -/
def execVasubuVX (o : OpVX) (s : State) : Result := plainOp (vasubuElem o.cfg.vxrm) (argsVX o) s

/-- The element function of `vasub`: `avg(S(a) - S(b))` (R290). -/
def vasubElem (mode : RoundMode) (W : Nat) (a b : BitVec W) : BitVec W :=
  trunc W (average mode (S a - S b))

/-- `vasub.vv` (R290, op 0x5F, form V). -/
def execVasubVV (o : OpVV) (s : State) : Result := plainOp (vasubElem o.cfg.vxrm) (argsVV o) s

/-- `vasub.vx` (R290, op 0x5F, form X). -/
def execVasubVX (o : OpVX) (s : State) : Result := plainOp (vasubElem o.cfg.vxrm) (argsVX o) s

end Sys2Proof.Machine
end

