-- ==== Sys2Proof/Machine/IntegerAlu.lean ====
section
/-! DEFINITION. Plain integer operations: element functions and meanings (R130 to R143). -/

namespace Sys2Proof.Machine

/-- The element function of `vadd`: `trunc_SEW(U(a) + U(b))` (R131). -/
def vaddElem (W : Nat) (a b : BitVec W) : BitVec W :=
  trunc W (U a + U b)

/-- `vadd.vv` (R131, op 0x00, form V). -/
def execVaddVV (o : OpVV) (s : State) : Result := plainOp vaddElem (argsVV o) s

/-- `vadd.vx` (R131, op 0x00, form X). -/
def execVaddVX (o : OpVX) (s : State) : Result := plainOp vaddElem (argsVX o) s

/-- `vadd.vi` (R131, op 0x00, form I). -/
def execVaddVI (o : OpVI) (s : State) : Result := plainOp vaddElem (argsVIs o) s

/-- The element function of `vsub`: `trunc_SEW(U(a) - U(b))` (R132). -/
def vsubElem (W : Nat) (a b : BitVec W) : BitVec W :=
  trunc W (U a - U b)

/-- `vsub.vv` (R132, op 0x01, form V). -/
def execVsubVV (o : OpVV) (s : State) : Result := plainOp vsubElem (argsVV o) s

/-- `vsub.vx` (R132, op 0x01, form X). -/
def execVsubVX (o : OpVX) (s : State) : Result := plainOp vsubElem (argsVX o) s

/-- The element function of `vrsub`: `trunc_SEW(U(b) - U(a))` (R133). -/
def vrsubElem (W : Nat) (a b : BitVec W) : BitVec W :=
  trunc W (U b - U a)

/-- `vrsub.vx` (R133, op 0x02, form X). -/
def execVrsubVX (o : OpVX) (s : State) : Result := plainOp vrsubElem (argsVX o) s

/-- `vrsub.vi` (R133, op 0x02, form I). -/
def execVrsubVI (o : OpVI) (s : State) : Result := plainOp vrsubElem (argsVIs o) s

/-- The element function of `vand`: `a & b` (R134). -/
def vandElem (W : Nat) (a b : BitVec W) : BitVec W :=
  a &&& b

/-- `vand.vv` (R134, op 0x03, form V). -/
def execVandVV (o : OpVV) (s : State) : Result := plainOp vandElem (argsVV o) s

/-- `vand.vx` (R134, op 0x03, form X). -/
def execVandVX (o : OpVX) (s : State) : Result := plainOp vandElem (argsVX o) s

/-- `vand.vi` (R134, op 0x03, form I). -/
def execVandVI (o : OpVI) (s : State) : Result := plainOp vandElem (argsVIs o) s

/-- The element function of `vor`: `a | b` (R135). -/
def vorElem (W : Nat) (a b : BitVec W) : BitVec W :=
  a ||| b

/-- `vor.vv` (R135, op 0x04, form V). -/
def execVorVV (o : OpVV) (s : State) : Result := plainOp vorElem (argsVV o) s

/-- `vor.vx` (R135, op 0x04, form X). -/
def execVorVX (o : OpVX) (s : State) : Result := plainOp vorElem (argsVX o) s

/-- `vor.vi` (R135, op 0x04, form I). -/
def execVorVI (o : OpVI) (s : State) : Result := plainOp vorElem (argsVIs o) s

/-- The element function of `vxor`: `a ^ b` (R136). -/
def vxorElem (W : Nat) (a b : BitVec W) : BitVec W :=
  a ^^^ b

/-- `vxor.vv` (R136, op 0x05, form V). -/
def execVxorVV (o : OpVV) (s : State) : Result := plainOp vxorElem (argsVV o) s

/-- `vxor.vx` (R136, op 0x05, form X). -/
def execVxorVX (o : OpVX) (s : State) : Result := plainOp vxorElem (argsVX o) s

/-- `vxor.vi` (R136, op 0x05, form I). -/
def execVxorVI (o : OpVI) (s : State) : Result := plainOp vxorElem (argsVIs o) s

/-- The element function of `vsll`: `trunc_SEW(U(a) * 2^sh)` (R137). -/
def vsllElem (W : Nat) (a b : BitVec W) : BitVec W :=
  trunc W (U a * 2 ^ shiftAmount W b)

/-- `vsll.vv` (R137, op 0x06, form V). -/
def execVsllVV (o : OpVV) (s : State) : Result := plainOp vsllElem (argsVV o) s

/-- `vsll.vx` (R137, op 0x06, form X). -/
def execVsllVX (o : OpVX) (s : State) : Result := plainOp vsllElem (argsVX o) s

/-- `vsll.vi` (R137, op 0x06, form I). -/
def execVsllVI (o : OpVI) (s : State) : Result := plainOp vsllElem (argsVIu o) s

/-- The element function of `vsrl`: `U(a) div 2^sh` (R138). -/
def vsrlElem (W : Nat) (a b : BitVec W) : BitVec W :=
  trunc W (U a / 2 ^ shiftAmount W b)

/-- `vsrl.vv` (R138, op 0x07, form V). -/
def execVsrlVV (o : OpVV) (s : State) : Result := plainOp vsrlElem (argsVV o) s

/-- `vsrl.vx` (R138, op 0x07, form X). -/
def execVsrlVX (o : OpVX) (s : State) : Result := plainOp vsrlElem (argsVX o) s

/-- `vsrl.vi` (R138, op 0x07, form I). -/
def execVsrlVI (o : OpVI) (s : State) : Result := plainOp vsrlElem (argsVIu o) s

/-- The element function of `vsra`: `trunc_SEW(floor(S(a) / 2^sh))` (R139). -/
def vsraElem (W : Nat) (a b : BitVec W) : BitVec W :=
  trunc W (S a / 2 ^ shiftAmount W b)

/-- `vsra.vv` (R139, op 0x08, form V). -/
def execVsraVV (o : OpVV) (s : State) : Result := plainOp vsraElem (argsVV o) s

/-- `vsra.vx` (R139, op 0x08, form X). -/
def execVsraVX (o : OpVX) (s : State) : Result := plainOp vsraElem (argsVX o) s

/-- `vsra.vi` (R139, op 0x08, form I). -/
def execVsraVI (o : OpVI) (s : State) : Result := plainOp vsraElem (argsVIu o) s

/-- The element function of `vminu`: the smaller unsigned reading (R140). -/
def vminuElem (W : Nat) (a b : BitVec W) : BitVec W :=
  if U a ≤ U b then a else b

/-- `vminu.vv` (R140, op 0x09, form V). -/
def execVminuVV (o : OpVV) (s : State) : Result := plainOp vminuElem (argsVV o) s

/-- `vminu.vx` (R140, op 0x09, form X). -/
def execVminuVX (o : OpVX) (s : State) : Result := plainOp vminuElem (argsVX o) s

/-- The element function of `vmin`: the smaller signed reading (R141). -/
def vminElem (W : Nat) (a b : BitVec W) : BitVec W :=
  if S a ≤ S b then a else b

/-- `vmin.vv` (R141, op 0x0A, form V). -/
def execVminVV (o : OpVV) (s : State) : Result := plainOp vminElem (argsVV o) s

/-- `vmin.vx` (R141, op 0x0A, form X). -/
def execVminVX (o : OpVX) (s : State) : Result := plainOp vminElem (argsVX o) s

/-- The element function of `vmaxu`: the larger unsigned reading (R142). -/
def vmaxuElem (W : Nat) (a b : BitVec W) : BitVec W :=
  if U b ≤ U a then a else b

/-- `vmaxu.vv` (R142, op 0x0B, form V). -/
def execVmaxuVV (o : OpVV) (s : State) : Result := plainOp vmaxuElem (argsVV o) s

/-- `vmaxu.vx` (R142, op 0x0B, form X). -/
def execVmaxuVX (o : OpVX) (s : State) : Result := plainOp vmaxuElem (argsVX o) s

/-- The element function of `vmax`: the larger signed reading (R143). -/
def vmaxElem (W : Nat) (a b : BitVec W) : BitVec W :=
  if S b ≤ S a then a else b

/-- `vmax.vv` (R143, op 0x0C, form V). -/
def execVmaxVV (o : OpVV) (s : State) : Result := plainOp vmaxElem (argsVV o) s

/-- `vmax.vx` (R143, op 0x0C, form X). -/
def execVmaxVX (o : OpVX) (s : State) : Result := plainOp vmaxElem (argsVX o) s

end Sys2Proof.Machine
end

