-- ==== Sys2Proof/Machine/MoveSlide.lean ====
section
/-! DEFINITION. Merge, move and slides (R260 to R266). -/

namespace Sys2Proof.Machine

/-- The element function of `vmerge`: mask bit 1 takes the right operand, 0 takes `vs2` (R260). -/
def vmergeElem (W : Nat) (a b : BitVec W) (c : Bool) : BitVec W :=
  if c then b else a

/-- `vmerge.vvm` (R260, op 0x60, form V). -/
def execVmergeVVM (o : OpVV) (s : State) : Result := mergeOp vmergeElem (argsVV o) s

/-- `vmerge.vxm` (R260, op 0x60, form X). -/
def execVmergeVXM (o : OpVX) (s : State) : Result := mergeOp vmergeElem (argsVX o) s

/-- `vmerge.vim` (R260, op 0x60, form I). -/
def execVmergeVIM (o : OpVI) (s : State) : Result := mergeOp vmergeElem (argsVIs o) s

/-- `vmv.v.v` (R261, op 0x61, form V). -/
def execVmvVV (o : OpMvV) (s : State) : Result := moveOp (argsMvV o) s

/-- `vmv.v.x` (R261, op 0x61, form X). -/
def execVmvVX (o : OpMvX) (s : State) : Result := moveOp (argsMvX o) s

/-- `vmv.v.i` (R261, op 0x61, form I). -/
def execVmvVI (o : OpMvI) (s : State) : Result := moveOp (argsMvI o) s

/-- `vslideup.vx` (R263, op 0x68, form X). -/
def execVslideupVX (o : OpVX) (s : State) : Result := slideUpOp (scalarOffset s) (argsVX o) s

/-- `vslideup.vi` (R263, op 0x68, form I). -/
def execVslideupVI (o : OpVI) (s : State) : Result := slideUpOp o.imm.toNat (argsVIu o) s

/-- `vslidedown.vx` (R264, op 0x69, form X). -/
def execVslidedownVX (o : OpVX) (s : State) : Result := slideDownOp (scalarOffset s) (argsVX o) s

/-- `vslidedown.vi` (R264, op 0x69, form I). -/
def execVslidedownVI (o : OpVI) (s : State) : Result := slideDownOp o.imm.toNat (argsVIu o) s

/-- `vslide1up.vx` (R265, op 0x6A, form X). -/
def execVslide1upVX (o : OpVX) (s : State) : Result := slide1UpOp (argsVX o) s

/-- `vslide1down.vx` (R266, op 0x6B, form X). -/
def execVslide1downVX (o : OpVX) (s : State) : Result := slide1DownOp (argsVX o) s

end Sys2Proof.Machine
end

