-- ==== Sys2Proof/Machine/MulDivMac.lean ====
section
/-! DEFINITION. Multiply, divide, remainder, widening multiply, multiply-accumulate (R190 to R209). -/

namespace Sys2Proof.Machine

/-- The element function of `vmul`: `trunc_SEW(U(a) * U(b))` (R191). -/
def vmulElem (W : Nat) (a b : BitVec W) : BitVec W :=
  trunc W (U a * U b)

/-- `vmul.vv` (R191, op 0x30, form V). -/
def execVmulVV (o : OpVV) (s : State) : Result := plainOp vmulElem (argsVV o) s

/-- `vmul.vx` (R191, op 0x30, form X). -/
def execVmulVX (o : OpVX) (s : State) : Result := plainOp vmulElem (argsVX o) s

/-- The element function of `vmulh`: the upper half of `S(a) * S(b)` (R192). -/
def vmulhElem (W : Nat) (a b : BitVec W) : BitVec W :=
  (trunc (2 * W) (S a * S b)).extractLsb' W W

/-- `vmulh.vv` (R192, op 0x31, form V). -/
def execVmulhVV (o : OpVV) (s : State) : Result := plainOp vmulhElem (argsVV o) s

/-- `vmulh.vx` (R192, op 0x31, form X). -/
def execVmulhVX (o : OpVX) (s : State) : Result := plainOp vmulhElem (argsVX o) s

/-- The element function of `vmulhu`: the upper half of `U(a) * U(b)` (R193). -/
def vmulhuElem (W : Nat) (a b : BitVec W) : BitVec W :=
  (trunc (2 * W) (U a * U b)).extractLsb' W W

/-- `vmulhu.vv` (R193, op 0x32, form V). -/
def execVmulhuVV (o : OpVV) (s : State) : Result := plainOp vmulhuElem (argsVV o) s

/-- `vmulhu.vx` (R193, op 0x32, form X). -/
def execVmulhuVX (o : OpVX) (s : State) : Result := plainOp vmulhuElem (argsVX o) s

/-- The element function of `vmulhsu`: the upper half of `S(a) * U(b)` (R194). -/
def vmulhsuElem (W : Nat) (a b : BitVec W) : BitVec W :=
  (trunc (2 * W) (S a * U b)).extractLsb' W W

/-- `vmulhsu.vv` (R194, op 0x33, form V). -/
def execVmulhsuVV (o : OpVV) (s : State) : Result := plainOp vmulhsuElem (argsVV o) s

/-- `vmulhsu.vx` (R194, op 0x33, form X). -/
def execVmulhsuVX (o : OpVX) (s : State) : Result := plainOp vmulhsuElem (argsVX o) s

/-- The element function of `vdivu`: all ones for a zero divisor, else the floor quotient (R195). -/
def vdivuElem (W : Nat) (a b : BitVec W) : BitVec W :=
  if U b = 0 then trunc W (-1) else trunc W (U a / U b)

/-- `vdivu.vv` (R195, op 0x34, form V). -/
def execVdivuVV (o : OpVV) (s : State) : Result := plainOp vdivuElem (argsVV o) s

/-- `vdivu.vx` (R195, op 0x34, form X). -/
def execVdivuVX (o : OpVX) (s : State) : Result := plainOp vdivuElem (argsVX o) s

/-- The element function of `vdiv`: all ones for a zero divisor, the dividend on overflow, else the quotient toward zero (R196). -/
def vdivElem (W : Nat) (a b : BitVec W) : BitVec W :=
  if S b = 0 then trunc W (-1)
  else if S a = -(2 ^ (W - 1)) ∧ S b = -1 then a
  else trunc W ((S a).tdiv (S b))

/-- `vdiv.vv` (R196, op 0x35, form V). -/
def execVdivVV (o : OpVV) (s : State) : Result := plainOp vdivElem (argsVV o) s

/-- `vdiv.vx` (R196, op 0x35, form X). -/
def execVdivVX (o : OpVX) (s : State) : Result := plainOp vdivElem (argsVX o) s

/-- The element function of `vremu`: the dividend for a zero divisor, else the remainder (R197). -/
def vremuElem (W : Nat) (a b : BitVec W) : BitVec W :=
  if U b = 0 then a else trunc W (U a % U b)

/-- `vremu.vv` (R197, op 0x36, form V). -/
def execVremuVV (o : OpVV) (s : State) : Result := plainOp vremuElem (argsVV o) s

/-- `vremu.vx` (R197, op 0x36, form X). -/
def execVremuVX (o : OpVX) (s : State) : Result := plainOp vremuElem (argsVX o) s

/-- The element function of `vrem`: the dividend for a zero divisor, 0 on overflow, else the remainder of the quotient toward zero (R198). -/
def vremElem (W : Nat) (a b : BitVec W) : BitVec W :=
  if S b = 0 then a
  else if S a = -(2 ^ (W - 1)) ∧ S b = -1 then trunc W 0
  else trunc W (S a - (S a).tdiv (S b) * S b)

/-- `vrem.vv` (R198, op 0x37, form V). -/
def execVremVV (o : OpVV) (s : State) : Result := plainOp vremElem (argsVV o) s

/-- `vrem.vx` (R198, op 0x37, form X). -/
def execVremVX (o : OpVX) (s : State) : Result := plainOp vremElem (argsVX o) s

/-- The element function of `vwmulu`: `U(a) * U(b)` (R199). -/
def vwmuluElem (W V : Nat) (a b : BitVec W) : BitVec V :=
  trunc V (U a * U b)

/-- `vwmulu.vv` (R199, op 0x38, form V). -/
def execVwmuluVV (o : OpVV) (s : State) : Result := wideOp vwmuluElem (argsVV o) s

/-- `vwmulu.vx` (R199, op 0x38, form X). -/
def execVwmuluVX (o : OpVX) (s : State) : Result := wideOp vwmuluElem (argsVX o) s

/-- The element function of `vwmul`: `trunc_2SEW(S(a) * S(b))` (R200). -/
def vwmulElem (W V : Nat) (a b : BitVec W) : BitVec V :=
  trunc V (S a * S b)

/-- `vwmul.vv` (R200, op 0x39, form V). -/
def execVwmulVV (o : OpVV) (s : State) : Result := wideOp vwmulElem (argsVV o) s

/-- `vwmul.vx` (R200, op 0x39, form X). -/
def execVwmulVX (o : OpVX) (s : State) : Result := wideOp vwmulElem (argsVX o) s

/-- The element function of `vwmulsu`: `trunc_2SEW(S(a) * U(b))` (R201). -/
def vwmulsuElem (W V : Nat) (a b : BitVec W) : BitVec V :=
  trunc V (S a * U b)

/-- `vwmulsu.vv` (R201, op 0x3A, form V). -/
def execVwmulsuVV (o : OpVV) (s : State) : Result := wideOp vwmulsuElem (argsVV o) s

/-- `vwmulsu.vx` (R201, op 0x3A, form X). -/
def execVwmulsuVX (o : OpVX) (s : State) : Result := wideOp vwmulsuElem (argsVX o) s

/-- The element function of `vmacc`: `trunc_SEW(U(d) + U(a)*U(b))` (R202). -/
def vmaccElem (W : Nat) (a b d : BitVec W) : BitVec W :=
  trunc W (U d + U a * U b)

/-- `vmacc.vv` (R202, op 0x40, form V). -/
def execVmaccVV (o : OpVV) (s : State) : Result := macOp vmaccElem (argsVV o) s

/-- `vmacc.vx` (R202, op 0x40, form X). -/
def execVmaccVX (o : OpVX) (s : State) : Result := macOp vmaccElem (argsVX o) s

/-- The element function of `vnmsac`: `trunc_SEW(U(d) - U(a)*U(b))` (R203). -/
def vnmsacElem (W : Nat) (a b d : BitVec W) : BitVec W :=
  trunc W (U d - U a * U b)

/-- `vnmsac.vv` (R203, op 0x41, form V). -/
def execVnmsacVV (o : OpVV) (s : State) : Result := macOp vnmsacElem (argsVV o) s

/-- `vnmsac.vx` (R203, op 0x41, form X). -/
def execVnmsacVX (o : OpVX) (s : State) : Result := macOp vnmsacElem (argsVX o) s

/-- The element function of `vmadd`: `trunc_SEW(U(a) + U(d)*U(b))` (R204). -/
def vmaddElem (W : Nat) (a b d : BitVec W) : BitVec W :=
  trunc W (U a + U d * U b)

/-- `vmadd.vv` (R204, op 0x42, form V). -/
def execVmaddVV (o : OpVV) (s : State) : Result := macOp vmaddElem (argsVV o) s

/-- `vmadd.vx` (R204, op 0x42, form X). -/
def execVmaddVX (o : OpVX) (s : State) : Result := macOp vmaddElem (argsVX o) s

/-- The element function of `vnmsub`: `trunc_SEW(U(a) - U(d)*U(b))` (R205). -/
def vnmsubElem (W : Nat) (a b d : BitVec W) : BitVec W :=
  trunc W (U a - U d * U b)

/-- `vnmsub.vv` (R205, op 0x43, form V). -/
def execVnmsubVV (o : OpVV) (s : State) : Result := macOp vnmsubElem (argsVV o) s

/-- `vnmsub.vx` (R205, op 0x43, form X). -/
def execVnmsubVX (o : OpVX) (s : State) : Result := macOp vnmsubElem (argsVX o) s

/-- The element function of `vwmaccu`: `trunc_2SEW(U(d) + U(b)*U(a))` (R206). -/
def vwmaccuElem (W V : Nat) (a b : BitVec W) (d : BitVec V) : BitVec V :=
  trunc V (U d + U b * U a)

/-- `vwmaccu.vv` (R206, op 0x44, form V). -/
def execVwmaccuVV (o : OpVV) (s : State) : Result := wideMacOp vwmaccuElem (argsVV o) s

/-- `vwmaccu.vx` (R206, op 0x44, form X). -/
def execVwmaccuVX (o : OpVX) (s : State) : Result := wideMacOp vwmaccuElem (argsVX o) s

/-- The element function of `vwmacc`: `trunc_2SEW(U(d) + S(b)*S(a))` (R207). -/
def vwmaccElem (W V : Nat) (a b : BitVec W) (d : BitVec V) : BitVec V :=
  trunc V (U d + S b * S a)

/-- `vwmacc.vv` (R207, op 0x45, form V). -/
def execVwmaccVV (o : OpVV) (s : State) : Result := wideMacOp vwmaccElem (argsVV o) s

/-- `vwmacc.vx` (R207, op 0x45, form X). -/
def execVwmaccVX (o : OpVX) (s : State) : Result := wideMacOp vwmaccElem (argsVX o) s

/-- The element function of `vwmaccsu`: `trunc_2SEW(U(d) + S(b)*U(a))`: right operand signed, `vs2` unsigned (R208). -/
def vwmaccsuElem (W V : Nat) (a b : BitVec W) (d : BitVec V) : BitVec V :=
  trunc V (U d + S b * U a)

/-- `vwmaccsu.vv` (R208, op 0x46, form V). -/
def execVwmaccsuVV (o : OpVV) (s : State) : Result := wideMacOp vwmaccsuElem (argsVV o) s

/-- `vwmaccsu.vx` (R208, op 0x46, form X). -/
def execVwmaccsuVX (o : OpVX) (s : State) : Result := wideMacOp vwmaccsuElem (argsVX o) s

/-- The element function of `vwmaccus`: `trunc_2SEW(U(d) + U(b)*S(a))`: scalar unsigned, `vs2` signed (R209). -/
def vwmaccusElem (W V : Nat) (a b : BitVec W) (d : BitVec V) : BitVec V :=
  trunc V (U d + U b * S a)

/-- `vwmaccus.vx` (R209, op 0x47, form X). -/
def execVwmaccusVX (o : OpVX) (s : State) : Result := wideMacOp vwmaccusElem (argsVX o) s

end Sys2Proof.Machine
end

