-- ==== Sys2Proof/Machine/WidenNarrow.lean ====
section
/-! DEFINITION. Extension, widening add and subtract, narrowing shifts (R160 to R172). -/

namespace Sys2Proof.Machine

/-- The element function of `vzext.vf2`: zero extension by 2 (R161). -/
def vzextVf2Elem (V W : Nat) (a : BitVec V) : BitVec W :=
  a.setWidth W

/-- `vzext.vf2` (R161, op 0x10, form V). -/
def execVzextVf2 (o : OpExt) (s : State) : Result := extOp .vf2 vzextVf2Elem o s

/-- The element function of `vzext.vf4`: zero extension by 4 (R162). -/
def vzextVf4Elem (V W : Nat) (a : BitVec V) : BitVec W :=
  a.setWidth W

/-- `vzext.vf4` (R162, op 0x11, form V). -/
def execVzextVf4 (o : OpExt) (s : State) : Result := extOp .vf4 vzextVf4Elem o s

/-- The element function of `vzext.vf8`: zero extension by 8 (R163). -/
def vzextVf8Elem (V W : Nat) (a : BitVec V) : BitVec W :=
  a.setWidth W

/-- `vzext.vf8` (R163, op 0x12, form V). -/
def execVzextVf8 (o : OpExt) (s : State) : Result := extOp .vf8 vzextVf8Elem o s

/-- The element function of `vsext.vf2`: sign extension by 2 (R164). -/
def vsextVf2Elem (V W : Nat) (a : BitVec V) : BitVec W :=
  a.signExtend W

/-- `vsext.vf2` (R164, op 0x13, form V). -/
def execVsextVf2 (o : OpExt) (s : State) : Result := extOp .vf2 vsextVf2Elem o s

/-- The element function of `vsext.vf4`: sign extension by 4 (R165). -/
def vsextVf4Elem (V W : Nat) (a : BitVec V) : BitVec W :=
  a.signExtend W

/-- `vsext.vf4` (R165, op 0x14, form V). -/
def execVsextVf4 (o : OpExt) (s : State) : Result := extOp .vf4 vsextVf4Elem o s

/-- The element function of `vsext.vf8`: sign extension by 8 (R166). -/
def vsextVf8Elem (V W : Nat) (a : BitVec V) : BitVec W :=
  a.signExtend W

/-- `vsext.vf8` (R166, op 0x15, form V). -/
def execVsextVf8 (o : OpExt) (s : State) : Result := extOp .vf8 vsextVf8Elem o s

/-- The element function of `vwaddu`: `trunc_2SEW(U(a) + U(b))` (R167). -/
def vwadduElem (W V : Nat) (a b : BitVec W) : BitVec V :=
  trunc V (U a + U b)

/-- `vwaddu.vv` (R167, op 0x18, form V). -/
def execVwadduVV (o : OpVV) (s : State) : Result := wideOp vwadduElem (argsVV o) s

/-- `vwaddu.vx` (R167, op 0x18, form X). -/
def execVwadduVX (o : OpVX) (s : State) : Result := wideOp vwadduElem (argsVX o) s

/-- The element function of `vwadd`: `trunc_2SEW(S(a) + S(b))` (R168). -/
def vwaddElem (W V : Nat) (a b : BitVec W) : BitVec V :=
  trunc V (S a + S b)

/-- `vwadd.vv` (R168, op 0x19, form V). -/
def execVwaddVV (o : OpVV) (s : State) : Result := wideOp vwaddElem (argsVV o) s

/-- `vwadd.vx` (R168, op 0x19, form X). -/
def execVwaddVX (o : OpVX) (s : State) : Result := wideOp vwaddElem (argsVX o) s

/-- The element function of `vwsubu`: `trunc_2SEW(U(a) - U(b))` (R169). -/
def vwsubuElem (W V : Nat) (a b : BitVec W) : BitVec V :=
  trunc V (U a - U b)

/-- `vwsubu.vv` (R169, op 0x1A, form V). -/
def execVwsubuVV (o : OpVV) (s : State) : Result := wideOp vwsubuElem (argsVV o) s

/-- `vwsubu.vx` (R169, op 0x1A, form X). -/
def execVwsubuVX (o : OpVX) (s : State) : Result := wideOp vwsubuElem (argsVX o) s

/-- The element function of `vwsub`: `trunc_2SEW(S(a) - S(b))` (R170). -/
def vwsubElem (W V : Nat) (a b : BitVec W) : BitVec V :=
  trunc V (S a - S b)

/-- `vwsub.vv` (R170, op 0x1B, form V). -/
def execVwsubVV (o : OpVV) (s : State) : Result := wideOp vwsubElem (argsVV o) s

/-- `vwsub.vx` (R170, op 0x1B, form X). -/
def execVwsubVX (o : OpVX) (s : State) : Result := wideOp vwsubElem (argsVX o) s

/-- The element function of `vnsrl`: `(U(a) div 2^sh)[SEW-1:0]`, the shift at the wide width (R171). -/
def vnsrlElem (V W : Nat) (a : BitVec V) (b : BitVec W) : BitVec W :=
  trunc W (U a / 2 ^ shiftAmount V b)

/-- `vnsrl.wv` (R171, op 0x1C, form V). -/
def execVnsrlWV (o : OpVV) (s : State) : Result := narrowOp vnsrlElem (argsVV o) s

/-- `vnsrl.wx` (R171, op 0x1C, form X). -/
def execVnsrlWX (o : OpVX) (s : State) : Result := narrowOp vnsrlElem (argsVX o) s

/-- `vnsrl.wi` (R171, op 0x1C, form I). -/
def execVnsrlWI (o : OpVI) (s : State) : Result := narrowOp vnsrlElem (argsVIu o) s

/-- The element function of `vnsra`: `trunc_SEW(floor(S_2SEW(a) / 2^sh))` (R172). -/
def vnsraElem (V W : Nat) (a : BitVec V) (b : BitVec W) : BitVec W :=
  trunc W (S a / 2 ^ shiftAmount V b)

/-- `vnsra.wv` (R172, op 0x1D, form V). -/
def execVnsraWV (o : OpVV) (s : State) : Result := narrowOp vnsraElem (argsVV o) s

/-- `vnsra.wx` (R172, op 0x1D, form X). -/
def execVnsraWX (o : OpVX) (s : State) : Result := narrowOp vnsraElem (argsVX o) s

/-- `vnsra.wi` (R172, op 0x1D, form I). -/
def execVnsraWI (o : OpVI) (s : State) : Result := narrowOp vnsraElem (argsVIu o) s

end Sys2Proof.Machine
end

