-- ==== Sys2Proof/Machine/Dispatch.lean ====
section
/-! DEFINITION. One arm per instruction, each a direct call of its meaning. -/

namespace Sys2Proof.Machine

def exec (i : Instr) (s : State) : Host.Outcome State Fault Refusal :=
  match i with
  -- Plain integer operations: element functions and meanings (R130 to R143)
  | .vaddVV o => Sys2Proof.Machine.execVaddVV o s
  | .vaddVX o => Sys2Proof.Machine.execVaddVX o s
  | .vaddVI o => Sys2Proof.Machine.execVaddVI o s
  | .vsubVV o => Sys2Proof.Machine.execVsubVV o s
  | .vsubVX o => Sys2Proof.Machine.execVsubVX o s
  | .vrsubVX o => Sys2Proof.Machine.execVrsubVX o s
  | .vrsubVI o => Sys2Proof.Machine.execVrsubVI o s
  | .vandVV o => Sys2Proof.Machine.execVandVV o s
  | .vandVX o => Sys2Proof.Machine.execVandVX o s
  | .vandVI o => Sys2Proof.Machine.execVandVI o s
  | .vorVV o => Sys2Proof.Machine.execVorVV o s
  | .vorVX o => Sys2Proof.Machine.execVorVX o s
  | .vorVI o => Sys2Proof.Machine.execVorVI o s
  | .vxorVV o => Sys2Proof.Machine.execVxorVV o s
  | .vxorVX o => Sys2Proof.Machine.execVxorVX o s
  | .vxorVI o => Sys2Proof.Machine.execVxorVI o s
  | .vsllVV o => Sys2Proof.Machine.execVsllVV o s
  | .vsllVX o => Sys2Proof.Machine.execVsllVX o s
  | .vsllVI o => Sys2Proof.Machine.execVsllVI o s
  | .vsrlVV o => Sys2Proof.Machine.execVsrlVV o s
  | .vsrlVX o => Sys2Proof.Machine.execVsrlVX o s
  | .vsrlVI o => Sys2Proof.Machine.execVsrlVI o s
  | .vsraVV o => Sys2Proof.Machine.execVsraVV o s
  | .vsraVX o => Sys2Proof.Machine.execVsraVX o s
  | .vsraVI o => Sys2Proof.Machine.execVsraVI o s
  | .vminuVV o => Sys2Proof.Machine.execVminuVV o s
  | .vminuVX o => Sys2Proof.Machine.execVminuVX o s
  | .vminVV o => Sys2Proof.Machine.execVminVV o s
  | .vminVX o => Sys2Proof.Machine.execVminVX o s
  | .vmaxuVV o => Sys2Proof.Machine.execVmaxuVV o s
  | .vmaxuVX o => Sys2Proof.Machine.execVmaxuVX o s
  | .vmaxVV o => Sys2Proof.Machine.execVmaxVV o s
  | .vmaxVX o => Sys2Proof.Machine.execVmaxVX o s
  -- Extension, widening add and subtract, narrowing shifts (R160 to R172)
  | .vzextVf2 o => Sys2Proof.Machine.execVzextVf2 o s
  | .vzextVf4 o => Sys2Proof.Machine.execVzextVf4 o s
  | .vzextVf8 o => Sys2Proof.Machine.execVzextVf8 o s
  | .vsextVf2 o => Sys2Proof.Machine.execVsextVf2 o s
  | .vsextVf4 o => Sys2Proof.Machine.execVsextVf4 o s
  | .vsextVf8 o => Sys2Proof.Machine.execVsextVf8 o s
  | .vwadduVV o => Sys2Proof.Machine.execVwadduVV o s
  | .vwadduVX o => Sys2Proof.Machine.execVwadduVX o s
  | .vwaddVV o => Sys2Proof.Machine.execVwaddVV o s
  | .vwaddVX o => Sys2Proof.Machine.execVwaddVX o s
  | .vwsubuVV o => Sys2Proof.Machine.execVwsubuVV o s
  | .vwsubuVX o => Sys2Proof.Machine.execVwsubuVX o s
  | .vwsubVV o => Sys2Proof.Machine.execVwsubVV o s
  | .vwsubVX o => Sys2Proof.Machine.execVwsubVX o s
  | .vnsrlWV o => Sys2Proof.Machine.execVnsrlWV o s
  | .vnsrlWX o => Sys2Proof.Machine.execVnsrlWX o s
  | .vnsrlWI o => Sys2Proof.Machine.execVnsrlWI o s
  | .vnsraWV o => Sys2Proof.Machine.execVnsraWV o s
  | .vnsraWX o => Sys2Proof.Machine.execVnsraWX o s
  | .vnsraWI o => Sys2Proof.Machine.execVnsraWI o s
  -- Comparisons to mask bits, add with carry, subtract with borrow, carry and borrow producers (R230 to R244)
  | .vmseqVV o => Sys2Proof.Machine.execVmseqVV o s
  | .vmseqVX o => Sys2Proof.Machine.execVmseqVX o s
  | .vmseqVI o => Sys2Proof.Machine.execVmseqVI o s
  | .vmsneVV o => Sys2Proof.Machine.execVmsneVV o s
  | .vmsneVX o => Sys2Proof.Machine.execVmsneVX o s
  | .vmsneVI o => Sys2Proof.Machine.execVmsneVI o s
  | .vmsltuVV o => Sys2Proof.Machine.execVmsltuVV o s
  | .vmsltuVX o => Sys2Proof.Machine.execVmsltuVX o s
  | .vmsltuVI o => Sys2Proof.Machine.execVmsltuVI o s
  | .vmsltVV o => Sys2Proof.Machine.execVmsltVV o s
  | .vmsltVX o => Sys2Proof.Machine.execVmsltVX o s
  | .vmsltVI o => Sys2Proof.Machine.execVmsltVI o s
  | .vmsleuVV o => Sys2Proof.Machine.execVmsleuVV o s
  | .vmsleuVX o => Sys2Proof.Machine.execVmsleuVX o s
  | .vmsleuVI o => Sys2Proof.Machine.execVmsleuVI o s
  | .vmsleVV o => Sys2Proof.Machine.execVmsleVV o s
  | .vmsleVX o => Sys2Proof.Machine.execVmsleVX o s
  | .vmsleVI o => Sys2Proof.Machine.execVmsleVI o s
  | .vmsgtuVV o => Sys2Proof.Machine.execVmsgtuVV o s
  | .vmsgtuVX o => Sys2Proof.Machine.execVmsgtuVX o s
  | .vmsgtuVI o => Sys2Proof.Machine.execVmsgtuVI o s
  | .vmsgtVV o => Sys2Proof.Machine.execVmsgtVV o s
  | .vmsgtVX o => Sys2Proof.Machine.execVmsgtVX o s
  | .vmsgtVI o => Sys2Proof.Machine.execVmsgtVI o s
  | .vmsgeuVV o => Sys2Proof.Machine.execVmsgeuVV o s
  | .vmsgeuVX o => Sys2Proof.Machine.execVmsgeuVX o s
  | .vmsgeuVI o => Sys2Proof.Machine.execVmsgeuVI o s
  | .vmsgeVV o => Sys2Proof.Machine.execVmsgeVV o s
  | .vmsgeVX o => Sys2Proof.Machine.execVmsgeVX o s
  | .vmsgeVI o => Sys2Proof.Machine.execVmsgeVI o s
  -- Multiply, divide, remainder, widening multiply, multiply-accumulate (R190 to R209)
  | .vmulVV o => Sys2Proof.Machine.execVmulVV o s
  | .vmulVX o => Sys2Proof.Machine.execVmulVX o s
  | .vmulhVV o => Sys2Proof.Machine.execVmulhVV o s
  | .vmulhVX o => Sys2Proof.Machine.execVmulhVX o s
  | .vmulhuVV o => Sys2Proof.Machine.execVmulhuVV o s
  | .vmulhuVX o => Sys2Proof.Machine.execVmulhuVX o s
  | .vmulhsuVV o => Sys2Proof.Machine.execVmulhsuVV o s
  | .vmulhsuVX o => Sys2Proof.Machine.execVmulhsuVX o s
  | .vdivuVV o => Sys2Proof.Machine.execVdivuVV o s
  | .vdivuVX o => Sys2Proof.Machine.execVdivuVX o s
  | .vdivVV o => Sys2Proof.Machine.execVdivVV o s
  | .vdivVX o => Sys2Proof.Machine.execVdivVX o s
  | .vremuVV o => Sys2Proof.Machine.execVremuVV o s
  | .vremuVX o => Sys2Proof.Machine.execVremuVX o s
  | .vremVV o => Sys2Proof.Machine.execVremVV o s
  | .vremVX o => Sys2Proof.Machine.execVremVX o s
  | .vwmuluVV o => Sys2Proof.Machine.execVwmuluVV o s
  | .vwmuluVX o => Sys2Proof.Machine.execVwmuluVX o s
  | .vwmulVV o => Sys2Proof.Machine.execVwmulVV o s
  | .vwmulVX o => Sys2Proof.Machine.execVwmulVX o s
  | .vwmulsuVV o => Sys2Proof.Machine.execVwmulsuVV o s
  | .vwmulsuVX o => Sys2Proof.Machine.execVwmulsuVX o s
  | .vmaccVV o => Sys2Proof.Machine.execVmaccVV o s
  | .vmaccVX o => Sys2Proof.Machine.execVmaccVX o s
  | .vnmsacVV o => Sys2Proof.Machine.execVnmsacVV o s
  | .vnmsacVX o => Sys2Proof.Machine.execVnmsacVX o s
  | .vmaddVV o => Sys2Proof.Machine.execVmaddVV o s
  | .vmaddVX o => Sys2Proof.Machine.execVmaddVX o s
  | .vnmsubVV o => Sys2Proof.Machine.execVnmsubVV o s
  | .vnmsubVX o => Sys2Proof.Machine.execVnmsubVX o s
  | .vwmaccuVV o => Sys2Proof.Machine.execVwmaccuVV o s
  | .vwmaccuVX o => Sys2Proof.Machine.execVwmaccuVX o s
  | .vwmaccVV o => Sys2Proof.Machine.execVwmaccVV o s
  | .vwmaccVX o => Sys2Proof.Machine.execVwmaccVX o s
  | .vwmaccsuVV o => Sys2Proof.Machine.execVwmaccsuVV o s
  | .vwmaccsuVX o => Sys2Proof.Machine.execVwmaccsuVX o s
  | .vwmaccusVX o => Sys2Proof.Machine.execVwmaccusVX o s
  -- Comparisons to mask bits, add with carry, subtract with borrow, carry and borrow producers (R230 to R244)
  | .vadcVVM o => Sys2Proof.Machine.execVadcVVM o s
  | .vadcVXM o => Sys2Proof.Machine.execVadcVXM o s
  | .vadcVIM o => Sys2Proof.Machine.execVadcVIM o s
  | .vsbcVVM o => Sys2Proof.Machine.execVsbcVVM o s
  | .vsbcVXM o => Sys2Proof.Machine.execVsbcVXM o s
  | .vmadcVV o => Sys2Proof.Machine.execVmadcVV o s
  | .vmadcVVM o => Sys2Proof.Machine.execVmadcVVM o s
  | .vmadcVX o => Sys2Proof.Machine.execVmadcVX o s
  | .vmadcVXM o => Sys2Proof.Machine.execVmadcVXM o s
  | .vmadcVI o => Sys2Proof.Machine.execVmadcVI o s
  | .vmadcVIM o => Sys2Proof.Machine.execVmadcVIM o s
  | .vmsbcVV o => Sys2Proof.Machine.execVmsbcVV o s
  | .vmsbcVVM o => Sys2Proof.Machine.execVmsbcVVM o s
  | .vmsbcVX o => Sys2Proof.Machine.execVmsbcVX o s
  | .vmsbcVXM o => Sys2Proof.Machine.execVmsbcVXM o s
  -- Saturating and averaging operations (R280 to R290)
  | .vsadduVV o => Sys2Proof.Machine.execVsadduVV o s
  | .vsadduVX o => Sys2Proof.Machine.execVsadduVX o s
  | .vsadduVI o => Sys2Proof.Machine.execVsadduVI o s
  | .vsaddVV o => Sys2Proof.Machine.execVsaddVV o s
  | .vsaddVX o => Sys2Proof.Machine.execVsaddVX o s
  | .vsaddVI o => Sys2Proof.Machine.execVsaddVI o s
  | .vssubuVV o => Sys2Proof.Machine.execVssubuVV o s
  | .vssubuVX o => Sys2Proof.Machine.execVssubuVX o s
  | .vssubVV o => Sys2Proof.Machine.execVssubVV o s
  | .vssubVX o => Sys2Proof.Machine.execVssubVX o s
  | .vaadduVV o => Sys2Proof.Machine.execVaadduVV o s
  | .vaadduVX o => Sys2Proof.Machine.execVaadduVX o s
  | .vaaddVV o => Sys2Proof.Machine.execVaaddVV o s
  | .vaaddVX o => Sys2Proof.Machine.execVaaddVX o s
  | .vasubuVV o => Sys2Proof.Machine.execVasubuVV o s
  | .vasubuVX o => Sys2Proof.Machine.execVasubuVX o s
  | .vasubVV o => Sys2Proof.Machine.execVasubVV o s
  | .vasubVX o => Sys2Proof.Machine.execVasubVX o s
  -- Merge, move and slides (R260 to R266)
  | .vmergeVVM o => Sys2Proof.Machine.execVmergeVVM o s
  | .vmergeVXM o => Sys2Proof.Machine.execVmergeVXM o s
  | .vmergeVIM o => Sys2Proof.Machine.execVmergeVIM o s
  | .vmvVV o => Sys2Proof.Machine.execVmvVV o s
  | .vmvVX o => Sys2Proof.Machine.execVmvVX o s
  | .vmvVI o => Sys2Proof.Machine.execVmvVI o s
  | .vslideupVX o => Sys2Proof.Machine.execVslideupVX o s
  | .vslideupVI o => Sys2Proof.Machine.execVslideupVI o s
  | .vslidedownVX o => Sys2Proof.Machine.execVslidedownVX o s
  | .vslidedownVI o => Sys2Proof.Machine.execVslidedownVI o s
  | .vslide1upVX o => Sys2Proof.Machine.execVslide1upVX o s
  | .vslide1downVX o => Sys2Proof.Machine.execVslide1downVX o s

end Sys2Proof.Machine
end

