-- ==== Sys2Proof/Machine/HostActions.lean ====
section
/-! DEFINITION. One host action and the block's whole answer to it (R11, R29, R100, R314, R330). -/

namespace Sys2Proof.Machine

/-- The host drives the request port (R28, R71). -/
def State.drive (s : State) (r : Request) : State := { s with port := r }

/-- The block takes the request on its port: decodes the descriptor, refuses a reserved one (R82, R305), runs the rest. -/
def takeRequest (s : State) : Result :=
  match decode s.port.req with
  | .error e => .refused (.reservedDescriptor e)
  | .ok i => exec i s

/-- A request of which the reset input catches the block in the middle (R330, R331, U17). A request that fails validation
writes nothing (R303), so it leaves the register file as it was; one that would have been carried out leaves its
destination group with free values. A request the model refuses is refused here too. -/
def takeAbandoned (s : State) : Result :=
  match decode s.port.req with
  | .error e => .refused (.reservedDescriptor e)
  | .ok i =>
    match exec i s with
    | .next _ =>
      if validate (planOf i) = .noExcept then .next (abandonGroup (planOf i) s).resetBlock else .next s.resetBlock
    | .fault r => .fault r
    | .refused r => .refused r

/-- The host's actions. -/
def hostAction (x : HostInput) (s : State) : Result :=
  match x with
  | .request r => takeRequest (s.drive r)
  | .hostRead a n => hostRead a n s
  | .hostWrite a bytes => hostWrite a bytes s
  | .reset => .next s.resetBlock
  | .abandoned r => takeAbandoned (s.drive r)

/-- The descriptor a table row's bits stand for: the bits above `nbits` are zero. -/
def descriptorOf (nbits w : Nat) : Descriptor := BitVec.ofNat 64 (w % 2 ^ nbits)

end Sys2Proof.Machine
end

