-- ==== Sys2Proof/Machine/Step.lean ====
section
/-! DEFINITION. One step: the host's next action and the block's answer (R11, R59). -/

namespace Sys2Proof.Machine

/-- With no action announced the block is idle and nothing changes (R331); else the first announced action is taken. -/
def step (s : State) : Host.Outcome State Fault Refusal :=
  match s.inputs with
  | [] => .next s
  | x :: rest => hostAction x { s with inputs := rest }

/-- The host presents this descriptor next, with the `VL`, `VSTART` and `RS1` it is already driving (log 1). -/
def State.withFetchWord (s : State) (nbits w : Nat) : State :=
  { s with inputs := .request ⟨descriptorOf nbits w, s.port.vl, s.port.vstart, s.port.rs1⟩ :: s.inputs }

end Sys2Proof.Machine
end

