-- ==== Sys2Proof/WellFormed.lean ====
section
/-! DEFINITION. When an instruction's configuration is admitted (R84, R334). Register indices, the immediate and the
fields are in range by their types; what is left to check is the multiplicity pair, the element width of every operand and
its effective multiplicity. `VL <= VLMAX` concerns the request port and is checked when a request runs (R104). -/

namespace Sys2Proof

/-- What is wrong with an instruction's configuration, if anything (R84). -/
def Instr.configError (i : Instr) : Option CfgError :=
  Machine.cfgError (Machine.planOf i).cls (Machine.planOf i).cfg

/-- The instruction's configuration is admitted (R334). -/
def Instr.wellFormed (i : Instr) : Bool := decide (i.configError = none)

end Sys2Proof
end

