-- ==== Sys2Proof/Safety.lean ====
section
/-! DEFINITION. The terms the statements use: a good state, a request that is carried out, and what it may change. -/

namespace Sys2Proof.Machine

/-- The invariant: the register file is in canonical form and lists no address outside the byte space (R40). -/
abbrev State.inv (s : State) : Prop :=
  Memory.wf s.vrf = true ∧ Memory.within s.params.fileBytes s.vrf = true

/-- The request on the port is admitted with this plan (R334). -/
abbrev Admitted (p : Plan) (s : State) : Prop :=
  cfgError p.cls p.cfg = none ∧ s.port.vl ≤ vlmax s.params p.cfg

/-- The request on the port is admitted, passes validation and has no hazard: it is carried out (R314). -/
abbrev Runs (p : Plan) (s : State) : Prop :=
  Admitted p s ∧ validate p = .noExcept ∧ hazard p = none

/-- Address `x` lies in element `i`, `w` bytes wide, of the group at `r` (R44). -/
abbrev InElem (vlenb : Nat) (r : VReg) (w i x : Nat) : Prop :=
  elemAddr vlenb r i w ≤ x ∧ x < elemAddr vlenb r i w + w

/-- Index `i` is one the loop runs over: `VSTART <= i < VL` (R109). -/
abbrev InLoop (s : State) (i : Nat) : Prop := s.port.vstart ≤ i ∧ i < s.port.vl

/-- Index `i` is one a masked request writes: in the loop, and active in the register file before the request (R110). -/
abbrev Touched (s : State) (me : Bool) (i : Nat) : Prop :=
  InLoop s i ∧ (me = false ∨ readBit s.params.vlenb s.vrf 0 i = true)

/-- The left operand of element `i` before the request, `w` bytes wide (R108). -/
abbrev opL (s : State) (vs2 : VReg) (w i : Nat) : BitVec (8 * w) := readElem s.params.vlenb s.vrf vs2 i w

/-- The right operand of element `i` before the request, `w` bytes wide (R107). -/
abbrev opR (s : State) (r : Rhs) (w i : Nat) : BitVec (8 * w) := rhsValue s s.vrf r i w

/-- The carry, borrow or selector of element `i` before the request: its bit of `v0` (R22). -/
abbrev bitV0 (s : State) (i : Nat) : Bool := readBit s.params.vlenb s.vrf 0 i

/-- The instruction's descriptor has this operation id and form (R70, R80). -/
def HasCode (i : Instr) (op : BitVec 8) (form : BitVec 2) : Prop :=
  (encode i).extractLsb' 0 8 = op ∧ (encode i).extractLsb' 8 2 = form

/-- `t` is `s` with a `NO_EXCEPT` response and a changed register file at most; `SAT` is 1 exactly when `sat` (R30, R33). -/
def Succeeds (s t : State) (sat : Prop) : Prop :=
  t = { s with vrf := t.vrf, response := t.response } ∧
    ∃ b, t.response = some ⟨.noExcept, b⟩ ∧ (b = true ↔ sat)

/-- Exactly the elements `i` with `wr i` of the group at `vd`, `w` bytes wide, were written, each with `val i`; every byte
outside them reads as before (R109, R111). -/
def WroteElems (s t : State) (vd : VReg) (w : Nat) (wr : Nat → Prop) (val : Nat → BitVec (8 * w)) : Prop :=
  (∀ i, wr i → readElem s.params.vlenb t.vrf vd i w = val i) ∧
    ∀ x, (∀ i, wr i → ¬ InElem s.params.vlenb vd w i x) → Memory.read t.vrf x = Memory.read s.vrf x

/-- Exactly the bits `i` with `wr i` of register `vd` were written, each with `val i`; every other bit of every byte of the
register file reads as before (R46, R112). -/
def WroteBits (s t : State) (vd : VReg) (wr : Nat → Prop) (val : Nat → Bool) : Prop :=
  (∀ i, wr i → readBit s.params.vlenb t.vrf vd i = val i) ∧
    ∀ x k, k < 8 → (∀ i, wr i → ¬ (x = bitAddr s.params.vlenb vd i ∧ k = i % 8)) →
      (Memory.read t.vrf x).getLsbD k = (Memory.read s.vrf x).getLsbD k

/-- Instruction `i` carries out the request of plan `p`: admitted, valid and free of hazards it ends in a next state with
`post`; admitted and invalid it reports the code of `validate` with `SAT = 0` and changes nothing else (R303, R314). -/
def Performs (i : Instr) (p : Plan) (post : State → State → Prop) : Prop :=
  ∀ s : State, s.inv →
    (Runs p s → ∃ t, exec i s = .next t ∧ post s t) ∧
    (Admitted p s → validate p ≠ .noExcept →
      exec i s = .next { s with response := some ⟨validate p, false⟩ })

/-- A masked request of class SAME that sets no flag: every written element becomes `f` of the left operand, the right
operand and the old destination element, all as they were before the request (R109, R130). -/
def PerformsSame (i : Instr) (a : Args) (f : (W : Nat) → BitVec W → BitVec W → BitVec W → BitVec W) : Prop :=
  Performs i (maskedPlan .same a) fun s t =>
    Succeeds s t False ∧
      WroteElems s t a.vd (sewb a.cfg.sew) (Touched s a.me) fun k =>
        f (8 * sewb a.cfg.sew) (opL s a.vs2 (sewb a.cfg.sew) k) (opR s a.rhs (sewb a.cfg.sew) k)
          (opL s a.vd (sewb a.cfg.sew) k)

/-- A saturating request: as `PerformsSame`, and `SAT` is 1 exactly when some written element has `sats` (R280, R281). -/
def PerformsSat (i : Instr) (a : Args) (f : (W : Nat) → BitVec W → BitVec W → BitVec W)
    (sats : (W : Nat) → BitVec W → BitVec W → Prop) : Prop :=
  Performs i (maskedPlan .same a) fun s t =>
    Succeeds s t (∃ k, Touched s a.me k ∧
        sats (8 * sewb a.cfg.sew) (opL s a.vs2 (sewb a.cfg.sew) k) (opR s a.rhs (sewb a.cfg.sew) k)) ∧
      WroteElems s t a.vd (sewb a.cfg.sew) (Touched s a.me) fun k =>
        f (8 * sewb a.cfg.sew) (opL s a.vs2 (sewb a.cfg.sew) k) (opR s a.rhs (sewb a.cfg.sew) k)

/-- A widening request: sources `SEW` wide, destination `2*SEW` wide; `f` takes both source elements and the old wide
destination element (R160, R190). -/
def PerformsWide (i : Instr) (a : Args) (f : (W V : Nat) → BitVec W → BitVec W → BitVec V → BitVec V) : Prop :=
  Performs i (maskedPlan .widen a) fun s t =>
    Succeeds s t False ∧
      WroteElems s t a.vd (2 * sewb a.cfg.sew) (Touched s a.me) fun k =>
        f (8 * sewb a.cfg.sew) (8 * (2 * sewb a.cfg.sew)) (opL s a.vs2 (sewb a.cfg.sew) k)
          (opR s a.rhs (sewb a.cfg.sew) k) (opL s a.vd (2 * sewb a.cfg.sew) k)

/-- A narrowing request: left operand `2*SEW` wide, right operand and destination `SEW` wide (R160). -/
def PerformsNarrow (i : Instr) (a : Args) (f : (V W : Nat) → BitVec V → BitVec W → BitVec W) : Prop :=
  Performs i (maskedPlan .narrow a) fun s t =>
    Succeeds s t False ∧
      WroteElems s t a.vd (sewb a.cfg.sew) (Touched s a.me) fun k =>
        f (8 * (2 * sewb a.cfg.sew)) (8 * sewb a.cfg.sew) (opL s a.vs2 (2 * sewb a.cfg.sew) k)
          (opR s a.rhs (sewb a.cfg.sew) k)

/-- An extension by `k`: source `SEW/k` wide, destination `SEW` wide (R160). -/
def PerformsExt (i : Instr) (k : ExtFactor) (o : OpExt) (f : (V W : Nat) → BitVec V → BitVec W) : Prop :=
  Performs i (extPlan k o) fun s t =>
    Succeeds s t False ∧
      WroteElems s t o.vd (sewb o.cfg.sew) (Touched s o.me) fun j =>
        f (8 * (sewb o.cfg.sew / k.val)) (8 * sewb o.cfg.sew) (opL s o.vs2 (sewb o.cfg.sew / k.val) j)

/-- A comparison: the bit of every written index becomes `p` of the two operands (R112, R230). -/
def PerformsCompare (i : Instr) (a : Args) (p : (W : Nat) → BitVec W → BitVec W → Bool) : Prop :=
  Performs i (maskedPlan .maskDst a) fun s t =>
    Succeeds s t False ∧
      WroteBits s t a.vd (Touched s a.me) fun k =>
        p (8 * sewb a.cfg.sew) (opL s a.vs2 (sewb a.cfg.sew) k) (opR s a.rhs (sewb a.cfg.sew) k)

/-- A carry or borrow producer: every bit of `[VSTART, VL)` is written; the carry in is the bit of `v0` when `me = 1` and 0
when `me = 0` (R243, R244). -/
def PerformsProducer (i : Instr) (a : Args) (p : (W : Nat) → BitVec W → BitVec W → Nat → Bool) : Prop :=
  Performs i (maskedPlan .maskDst a) fun s t =>
    Succeeds s t False ∧
      WroteBits s t a.vd (InLoop s) fun k =>
        p (8 * sewb a.cfg.sew) (opL s a.vs2 (sewb a.cfg.sew) k) (opR s a.rhs (sewb a.cfg.sew) k)
          (if a.me = true ∧ bitV0 s k = true then 1 else 0)

/-- A request that reads a bit of `v0` with every element and ignores `me`; `wr` says which elements it writes (R76, R241,
R242, R260). -/
def PerformsCarry (i : Instr) (a : Args) (wr : State → Nat → Prop)
    (f : (W : Nat) → BitVec W → BitVec W → Nat → BitVec W) : Prop :=
  Performs i (carryPlan a) fun s t =>
    Succeeds s t False ∧
      WroteElems s t a.vd (sewb a.cfg.sew) (wr s) fun k =>
        f (8 * sewb a.cfg.sew) (opL s a.vs2 (sewb a.cfg.sew) k) (opR s a.rhs (sewb a.cfg.sew) k)
          (if bitV0 s k = true then 1 else 0)

/-- A move: every element of `[VSTART, VL)` becomes the right operand (R261). -/
def PerformsMove (i : Instr) (a : MoveArgs) : Prop :=
  Performs i (movePlan a) fun s t =>
    Succeeds s t False ∧
      WroteElems s t a.vd (sewb a.cfg.sew) (InLoop s) fun k => opR s a.rhs (sewb a.cfg.sew) k

/-- A slide: every active element `k` of the loop with `lo s ≤ k` becomes `src s k` (R262). -/
def PerformsSlide (i : Instr) (up : Bool) (a : Args) (lo : State → Nat)
    (src : State → Nat → BitVec (8 * sewb a.cfg.sew)) : Prop :=
  Performs i (slidePlan up a) fun s t =>
    Succeeds s t False ∧
      WroteElems s t a.vd (sewb a.cfg.sew) (fun k => Touched s a.me k ∧ lo s ≤ k) (src s)

/-- Half of an exact integer, rounded as the mode says (R286): `v[0]` and `v[1]` are the two lowest bits of `v`. -/
def roundedHalf (mode : RoundMode) (v : Int) : Int :=
  match mode with
  | .rnu => Int.fdiv (v + 1) 2
  | .rne => Int.fdiv v 2 + (if Int.fmod v 4 = 3 then 1 else 0)
  | .rdn => Int.fdiv v 2
  | .rod => Int.fdiv v 2 + (if Int.fmod v 4 = 1 then 1 else 0)

/-- Register `x` belongs to the group of multiplicity `m` at `r` (R49). -/
abbrev InGroup (r : VReg) (m : Mult) (x : Nat) : Prop := r.val ≤ x ∧ x < r.val + m.nreg

/-- Address `x` lies in a register of the destination group of plan `p`; a mask destination is one register (R49, R102). -/
abbrev InDestination (p : Plan) (vlenb x : Nat) : Prop :=
  p.vd.val * vlenb ≤ x ∧ x < (p.vd.val + (destMult p).nreg) * vlenb

end Sys2Proof.Machine
end

