-- ==== Sys2Proof/Certificates/Slice0/Obligations.lean ====
section
/-! DEFINITION. The statements for the provers, from the numbered rules of the spec. -/

open Sys2Proof Sys2Proof.Machine

/-- Decoding the descriptor of any instruction gives that instruction back. For every instruction, with every operand at
every value its fields admit, the decoder reads the descriptor that the encoder writes as that very instruction: no
field is dropped and no row is mistaken for another. (30_encoding.md section 1 (R70); 30_encoding.md section 3 (R79,
R80).) -/
def Obligations.DecodingAnEncodingGivesTheInstruction : Prop :=
  ∀ i : Instr, decode (encode i) = .ok i

/-- A descriptor the decoder accepts is exactly the descriptor of the instruction it gives. If the decoder accepts a
64-bit word as an instruction, then encoding that instruction gives the same word: no bit of a descriptor is
ignored. (30_encoding.md section 1 (R70); 30_encoding.md section 4 (R82).) -/
def Obligations.AcceptedDescriptorHasOneMeaning : Prop :=
  ∀ (w : Descriptor) (i : Instr), decode w = .ok i → encode i = w

/-- The number a descriptor stands for is the sum of its fields at their places. A descriptor built from its fields is
op + form*2^8 + me*2^10 + vd*2^11 + vs1*2^16 + vs2*2^21 + vsew*2^26 + lmul_num*2^28 + lmul_den*2^32 + vxrm*2^36 +
zero*2^38, and taking a descriptor apart and putting it together gives it back. (30_encoding.md section 1 (R70).) -/
def Obligations.DescriptorFieldsStandWhereTheFormatSays : Prop :=
  (∀ f : Fields, f.toWord.toNat =
    f.op.toNat + f.form.toNat * 2 ^ 8 + f.me.toNat * 2 ^ 10 + f.vd.toNat * 2 ^ 11 + f.vs1.toNat * 2 ^ 16 +
      f.vs2.toNat * 2 ^ 21 + f.vsew.toNat * 2 ^ 26 + f.lmulNum.toNat * 2 ^ 28 + f.lmulDen.toNat * 2 ^ 32 +
      f.vxrm.toNat * 2 ^ 36 + f.zero.toNat * 2 ^ 38) ∧
  ∀ w : Descriptor, (Fields.ofWord w).toWord = w

/-- The worked encoding of the spec decodes to the instruction it stands for. The descriptor 0x0000_0001_1822_1800 that
R90 works out decodes to vadd.vv with vd = 3, vs2 = 1, vs1 = 2, unmasked, SEW = 32, LMUL = 1/1, vxrm = 0; and that
instruction encodes to this word. (R90.) -/
def Obligations.SpecWordsDecodeAsWritten : Prop :=
  decode 0x0000000118221800 = .ok (.vaddVV ⟨false, 3, 2, 1, ⟨.e32, 1, 1, .rnu⟩⟩) ∧
  encode (.vaddVV ⟨false, 3, 2, 1, ⟨.e32, 1, 1, .rnu⟩⟩) = 0x0000000118221800

/-- One word of each family, written out field by field, decodes to the instruction it stands for. Each word is written
in binary with its fields vxrm, lmul_den, lmul_num, vsew, vs2, vs1, vd, me, form and op in this order: vsll.vi,
vwsub.vx, vmacc.vv, vmsbc.vvm, vslide1down.vx and vssub.vv. (30_encoding.md section 1 (R70); 30_encoding.md section
3 (R80).) -/
def Obligations.WordsWrittenBitByBitDecodeAsTheyStand : Prop :=
  decode 0b01_0010_0001_01_10101_01001_00101_1_10_00000110 = .ok (.vsllVI ⟨true, 5, 9, 21, ⟨.e16, 1, 2, .rne⟩⟩) ∧
  decode 0b11_0001_0100_10_00011_00000_11110_0_01_00011011 = .ok (.vwsubVX ⟨false, 30, 3, ⟨.e32, 4, 1, .rod⟩⟩) ∧
  decode 0b00_0001_1000_11_00001_10000_11111_1_00_01000000 = .ok (.vmaccVV ⟨true, 31, 16, 1, ⟨.e64, 8, 1, .rnu⟩⟩) ∧
  decode 0b10_1000_0001_00_00010_10100_01010_1_00_01010011 = .ok (.vmsbcVVM ⟨10, 20, 2, ⟨.e8, 1, 8, .rdn⟩⟩) ∧
  decode 0b00_0001_0010_10_01000_00000_10001_1_01_01101011 = .ok (.vslide1downVX ⟨true, 17, 8, ⟨.e32, 2, 1, .rnu⟩⟩) ∧
  decode 0b01_0100_0001_11_00011_00010_00001_0_00_01011011 = .ok (.vssubVV ⟨false, 1, 2, 3, ⟨.e64, 1, 4, .rne⟩⟩)

/-- A descriptor is refused by the decoder exactly when R82 calls it reserved, and a request with it is refused. The
decoder rejects a word exactly when REQ[63:38] is not zero, or form is 3, or the (op, form) pair is none of the 160
listed ones, or the vs1 field is not zero in form X or in a one-source operation, or the vs2 field is not zero in
vmv.v.*; and a step whose next host action is a request with such a word is refused. (R82.) -/
def Obligations.ReservedDescriptorsAreExactlyTheRefusedOnes : Prop :=
  let op := fun w : Descriptor => (w.extractLsb' 0 8).toNat
  let form := fun w : Descriptor => (w.extractLsb' 8 2).toNat
  let vs1 := fun w : Descriptor => (w.extractLsb' 16 5).toNat
  let vs2 := fun w : Descriptor => (w.extractLsb' 21 5).toNat
  let formV := List.range' 0x00 2 ++ List.range' 0x03 10 ++ List.range' 0x10 6 ++ List.range' 0x18 6 ++
    List.range' 0x20 10 ++ List.range' 0x30 11 ++ List.range' 0x40 7 ++ List.range' 0x50 4 ++ List.range' 0x58 10
  let formX := List.range' 0x00 13 ++ List.range' 0x18 6 ++ List.range' 0x20 10 ++ List.range' 0x30 11 ++
    List.range' 0x40 8 ++ List.range' 0x50 4 ++ List.range' 0x58 10 ++ List.range' 0x68 4
  let formI := [0x00, 0x02, 0x03, 0x04, 0x05, 0x06, 0x07, 0x08, 0x1C, 0x1D] ++ List.range' 0x20 10 ++
    [0x50, 0x52, 0x58, 0x59, 0x60, 0x61, 0x68, 0x69]
  let pair := fun w : Descriptor =>
    form w = 0 ∧ op w ∈ formV ∨ form w = 1 ∧ op w ∈ formX ∨ form w = 2 ∧ op w ∈ formI
  let reserved := fun w : Descriptor =>
    w.toNat / 2 ^ 38 ≠ 0 ∨ form w = 3 ∨ ¬ pair w ∨
      ((form w = 1 ∨ 0x10 ≤ op w ∧ op w ≤ 0x15) ∧ vs1 w ≠ 0) ∨ (op w = 0x61 ∧ vs2 w ≠ 0)
  (∀ w : Descriptor, (∃ e, decode w = .error e) ↔ reserved w) ∧
  ∀ (s : State) (r : Request) (rest : List HostInput), s.inputs = .request r :: rest → reserved r.req →
    ∃ e, step s = .refused (.reservedDescriptor e)

/-- A multi-byte read and write place byte k of the value at the k-th address. Reading n bytes from a gives the number
whose bits 8k+7..8k are the byte at a+k; writing an n-byte value to a puts its bits 8k+7..8k into the byte at a+k
and leaves every byte outside a..a+n-1 as it was. (R43.) -/
def Obligations.ElementBytesAreLittleEndian : Prop :=
  ∀ (m : Memory) (a n : Nat), Memory.wf m = true →
    (∀ k, k < n → (Memory.memRead m a n).extractLsb' (8 * k) 8 = Memory.read m (a + k)) ∧
    ∀ v : BitVec (8 * n),
      (∀ k, k < n → Memory.read (Memory.memWrite m a n v) (a + k) = v.extractLsb' (8 * k) 8) ∧
      ∀ x, x < a ∨ a + n ≤ x → Memory.read (Memory.memWrite m a n v) x = Memory.read m x

/-- An element of double width is two neighbouring elements of single width, and byte k of a register is its byte
element k. Element i of width 2w at base r is the concatenation of elements 2i+1 (upper half) and 2i (lower half) of
width w; element k of width 1 is byte k of register r. A write of either view is therefore seen by the other. (R45.) -/
def Obligations.MixedWidthViewsAlias : Prop :=
  ∀ (b : Nat) (m : Memory) (r : VReg) (i w : Nat),
    (readElem b m r i (2 * w)).toNat =
      (readElem b m r (2 * i) w).toNat + 2 ^ (8 * w) * (readElem b m r (2 * i + 1) w).toNat ∧
    readElem b m r i 1 = Memory.read m (r.val * b + i)

/-- Bit i of a register is bit i mod 8 of its byte i div 8, and writing it leaves every other bit alone. Reading bit i
of register r gives bit i mod 8 of the byte at r*VLENB + i div 8; after writing it, that bit has the new value and
every other bit of every byte reads as before. (R46.) -/
def Obligations.BitWriteLeavesTheOtherBits : Prop :=
  ∀ (b : Nat) (m : Memory) (r : VReg) (i : Nat), Memory.wf m = true →
    readBit b m r i = (Memory.read m (r.val * b + i / 8)).getLsbD (i % 8) ∧
    ∀ v : Bool,
      readBit b (writeBit b m r i v) r i = v ∧
      ∀ x k, k < 8 → ¬ (x = r.val * b + i / 8 ∧ k = i % 8) →
        (Memory.read (writeBit b m r i v) x).getLsbD k = (Memory.read m x).getLsbD k

/-- Two register files in canonical form that read alike at every address are the same data (a property of the model's
representation, log 2). The representation of the register file is the model's choice (log 2): a list of the bytes
that differ from the unlisted byte. In canonical form it is unique: equal at every address means equal.
(20_memory.md section 1 (R40); 10_state.md section 1 (R20).) -/
def Obligations.EqualRegisterFilesAreEqualData : Prop :=
  ∀ m m' : Memory, Memory.wf m = true → Memory.wf m' = true → (∀ x, Memory.read m x = Memory.read m' x) → m = m'

/-- A register index is aligned exactly when EMUL < 1 or the index is a multiple of ceil(EMUL). For every register index
and every multiplicity num/den with den > 0, read as an exact rational. (20_memory.md section 3 (R50).) -/
def Obligations.AlignedMeansDivisibleByTheCeiling : Prop :=
  ∀ (r : VReg) (num den : Nat), 0 < den →
    (aligned r ⟨num, den⟩ = true ↔ (num : ℚ) / den < 1 ∨ (r.val : ℤ) % ⌈(num : ℚ) / den⌉ = 0)

/-- Every element of an admitted, validated request lies inside its group's registers and inside the register file,
naturally aligned. For every request that is admitted and passes validation and every index k below VL: element k of
each operand group that the class has (destination, vs1, vs2, each at its own width) lies in the group's registers
and below the end of the register file and its address is a multiple of its width; the mask bits k of v0 and of a
mask destination lie in one register. (20_memory.md section 3 (R51); 40_common.md section 4 (R113); 20_memory.md
section 5 (R57).) -/
def Obligations.ValidatedAccessesStayInTheirGroup : Prop :=
  ∀ (i : Instr) (s : State), Admitted (planOf i) s → validate (planOf i) = .noExcept → ∀ k, k < s.port.vl →
    let inside := fun (r : VReg) (sh : Shape) =>
      elemAddr s.params.vlenb r k (sh.eew / 8) + sh.eew / 8 ≤ (r.val + sh.emul.nreg) * s.params.vlenb ∧
      (r.val + sh.emul.nreg) * s.params.vlenb ≤ s.params.fileBytes ∧
      elemAddr s.params.vlenb r k (sh.eew / 8) % (sh.eew / 8) = 0
    (∀ sh, vdShape (planOf i).cls (planOf i).cfg = some sh → inside (planOf i).vd sh) ∧
    (∀ r sh, (planOf i).vs2 = some r → vs2Shape (planOf i).cls (planOf i).cfg = some sh → inside r sh) ∧
    (∀ r, (planOf i).vs1 = some r → inside r (ownShape (planOf i).cfg)) ∧
    ∀ r : VReg, bitAddr s.params.vlenb r k < (r.val + 1) * s.params.vlenb

/-- The widening, extension and narrowing overlap predicates, in terms of shared registers. For an admitted
multiplicity: after alignment a widening is legal exactly when the groups share no register or LMUL >= 1 and vs is
the upper half of the destination group; an extension by f exactly when they share none or LMUL/f >= 1 and the
source is the highest registers of the destination group; a narrowing exactly when they share none or vd = vs2.
(20_memory.md section 4 (R53, R54, R55).) -/
def Obligations.OverlapRulesSayWhichRegistersMayBeShared : Prop :=
  ∀ (m : Mult) (vd vs : VReg), m ∈ admittedPairs →
    let apart := fun (md ms : Mult) => ∀ x, ¬ (InGroup vd md x ∧ InGroup vs ms x)
    (aligned vd (m.times 2) = true → aligned vs m = true →
      (widenOk vd vs m (m.times 2) = true ↔ apart (m.times 2) m ∨ m.den ≤ m.num ∧ vs.val = vd.val + m.nreg)) ∧
    (∀ f : ExtFactor, widenOk vd vs (m.over f.val) m = true ↔
      apart m (m.over f.val) ∨ m.den * f.val ≤ m.num ∧ vs.val + (m.over f.val).nreg = vd.val + m.nreg) ∧
    (narrowOk vd vs m (m.times 2) = true ↔ apart m (m.times 2) ∨ vd = vs)

/-- Per validation class: which checks are made, with which multiplicities, in which order, and which code each gives.
For each class of R102 the status is that of the first failing check in the order SRC1, SRC2, DST alignment, then
overlap with vs1, then with vs2; the two examples of R306 return SRC1_VEC_ILL and WIDENING_OVERLAP_VD_VS1_ILL.
(R102; R103; R306.) -/
def Obligations.FirstFailingCheckGivesTheStatus : Prop :=
  (∀ a : Args, validate (maskedPlan .same a) = validate (carryPlan a)) ∧
  (∀ (a : Args) (v : VReg), a.rhs = .vec v → let m := lmul a.cfg
    validate (maskedPlan .same a) = (if aligned v m = false then .src1VecIll else if aligned a.vs2 m = false then .src2VecIll
      else if aligned a.vd m = false then .dstVecIll else .noExcept) ∧
    validate (maskedPlan .maskDst a) = (if aligned v m = false then .src1VecIll
      else if aligned a.vs2 m = false then .src2VecIll else .noExcept) ∧
    validate (maskedPlan .narrow a) = (if aligned v m = false then .src1VecIll
      else if aligned a.vs2 (m.times 2) = false then .src2VecIll else if aligned a.vd m = false then .dstVecIll
      else if narrowOk a.vd a.vs2 m (m.times 2) = false then .narrowingOverlapVdVs2Ill else .noExcept) ∧
    validate (maskedPlan .widen a) = (if aligned v m = false then .src1VecIll
      else if aligned a.vs2 m = false then .src2VecIll else if aligned a.vd (m.times 2) = false then .dstVecIll
      else if widenOk a.vd v m (m.times 2) = false then .wideningOverlapVdVs1Ill
      else if widenOk a.vd a.vs2 m (m.times 2) = false then .wideningOverlapVdVs2Ill else .noExcept)) ∧
  (∀ a : Args, a.rhs.reg = none → let m := lmul a.cfg
    validate (maskedPlan .same a) = (if aligned a.vs2 m = false then .src2VecIll
      else if aligned a.vd m = false then .dstVecIll else .noExcept) ∧
    validate (maskedPlan .maskDst a) = (if aligned a.vs2 m = false then .src2VecIll else .noExcept) ∧
    validate (maskedPlan .narrow a) = (if aligned a.vs2 (m.times 2) = false then .src2VecIll
      else if aligned a.vd m = false then .dstVecIll
      else if narrowOk a.vd a.vs2 m (m.times 2) = false then .narrowingOverlapVdVs2Ill else .noExcept) ∧
    validate (maskedPlan .widen a) = (if aligned a.vs2 m = false then .src2VecIll
      else if aligned a.vd (m.times 2) = false then .dstVecIll
      else if widenOk a.vd a.vs2 m (m.times 2) = false then .wideningOverlapVdVs2Ill else .noExcept)) ∧
  (∀ (a : Args) (up : Bool), let m := lmul a.cfg
    validate (slidePlan up a) = (if aligned a.vs2 m = false then .src2VecIll
      else if aligned a.vd m = false then .dstVecIll else .noExcept)) ∧
  (∀ (f : ExtFactor) (o : OpExt), let m := lmul o.cfg
    validate (extPlan f o) = (if aligned o.vs2 (m.over f.val) = false then .src2VecIll
      else if aligned o.vd m = false then .dstVecIll
      else if widenOk o.vd o.vs2 (m.over f.val) m = false then .wideningOverlapVdVs2Ill else .noExcept)) ∧
  (∀ a : MoveArgs, let m := lmul a.cfg
    validate (movePlan a) = (if (∃ v, a.rhs = .vec v ∧ aligned v m = false) then .src1VecIll
      else if aligned a.vd m = false then .dstVecIll else .noExcept)) ∧
  validate (planOf (.vwaddVV ⟨false, 1, 5, 3, ⟨.e8, 2, 1, .rnu⟩⟩)) = .src1VecIll ∧
  validate (planOf (.vwaddVV ⟨false, 8, 8, 8, ⟨.e8, 1, 1, .rnu⟩⟩)) = .wideningOverlapVdVs1Ill

/-- The seven status values have the codes 0 to 6 on the STATUS port; 7 is never produced. Each status has the number
R300 gives it, no two share one, and none is 7. (60_exceptions.md section 1 (R300); 93_implementation_defined.md
U19.) -/
def Obligations.StatusPortCodes : Prop :=
  statusCode .noExcept = 0 ∧ statusCode .src1VecIll = 1 ∧ statusCode .src2VecIll = 2 ∧ statusCode .dstVecIll = 3 ∧
  statusCode .wideningOverlapVdVs1Ill = 4 ∧ statusCode .wideningOverlapVdVs2Ill = 5 ∧
  statusCode .narrowingOverlapVdVs2Ill = 6 ∧ (∀ c, statusCode c ≠ 7) ∧ ∀ c d, statusCode c = statusCode d → c = d

/-- The status is a function of op, form, vd, vs1, vs2, vsew, lmul_num and lmul_den alone. Two descriptors that differ
at most in me and vxrm validate to the same status; and an instruction that fails validation in one admitted state
fails with the same code in every other, whatever the register file, VL, VSTART and RS1 are. The response carries
that code with SAT = 0 and nothing else of State changes. (R302.) -/
def Obligations.StatusDoesNotDependOnData : Prop :=
  (∀ (f : Fields) (me : Bool) (vxrm : BitVec 2) (i j : Instr), decodeFields f = .ok i →
    decodeFields { f with me := me, vxrm := vxrm } = .ok j → validate (planOf i) = validate (planOf j)) ∧
  ∀ (i : Instr) (s s' t : State) (r : Response), Admitted (planOf i) s → Admitted (planOf i) s' →
    exec i s = .next t → t.response = some r → r.status ≠ .noExcept →
    exec i s' = .next { s' with response := some ⟨r.status, false⟩ }

/-- A request that fails validation reports its code with SAT = 0 and leaves everything else as it was. For every
instruction: if the request is admitted and validation finds a status other than NO_EXCEPT, the next state is the
old one with the response (that status, SAT = 0); and whenever a request's response is not NO_EXCEPT, the register
file is the old one and SAT is 0. (R303; R106.) -/
def Obligations.FailingRequestChangesOnlyTheResponse : Prop :=
  ∀ (i : Instr) (s : State),
    (Admitted (planOf i) s → validate (planOf i) ≠ .noExcept →
      exec i s = .next { s with response := some ⟨validate (planOf i), false⟩ }) ∧
    ∀ (t : State) (r : Response), exec i s = .next t → t.response = some r → r.status ≠ .noExcept →
      t = { s with response := t.response } ∧ r.sat = false

/-- Every request is refused, reported or carried out in the order of R314 (which refusal is named: the model's choice,
log 10). For every instruction and state: not admitted is refused; admitted but invalid responds with the status and
the old register file; valid but hazardous is refused; otherwise the request is carried out and responds NO_EXCEPT.
Nothing else happens. R314 says only that such requests are refused: that the configuration is looked at before VL >
VLMAX, and which notAdmitted or hazardous name a refusal carries, is the model's choice (DESIGN CHOICE, log 10).
(60_exceptions.md section 5 (R314).) -/
def Obligations.RequestsFollowTheProtocol : Prop :=
  ∀ (i : Instr) (s : State), let p := planOf i
    (∀ e, cfgError p.cls p.cfg = some e → exec i s = .refused (.notAdmitted e)) ∧
    (cfgError p.cls p.cfg = none → vlmax s.params p.cfg < s.port.vl → exec i s = .refused .vectorLength) ∧
    (Admitted p s → validate p ≠ .noExcept → exec i s = .next { s with response := some ⟨validate p, false⟩ }) ∧
    (∀ h, Admitted p s → validate p = .noExcept → hazard p = some h → exec i s = .refused (.hazardous h)) ∧
    (Runs p s → ∃ m sat, exec i s = .next { s with vrf := m, response := some ⟨.noExcept, sat⟩ })

/-- Which (SEW, LMUL) configurations each class admits. A configuration is admitted exactly when its multiplicity is one
of the seven pairs and, for widening and narrowing, SEW <= 32 and LMUL <= 4; for an extension by 2, SEW >= 16 and
LMUL >= 1/4; by 4, SEW >= 32 and LMUL >= 1/2; by 8, SEW = 64 and LMUL >= 1. (30_encoding.md section 4 (R84);
70_reset_and_hazards.md section 3 (R334); 42_extend_widen_narrow.md section 1 (R160).) -/
def Obligations.AdmittedConfigurationsPerClass : Prop :=
  ∀ (k : VClass) (c : Cfg), cfgError k c = none ↔
    (c.lmulNum.toNat, c.lmulDen.toNat) ∈ [(1, 8), (1, 4), (1, 2), (1, 1), (2, 1), (4, 1), (8, 1)] ∧
    match k with
    | .widen | .narrow => c.sew ≠ .e64 ∧ c.lmulNum.toNat ≤ 4
    | .ext .vf2 => c.sew ≠ .e8 ∧ c.lmulDen.toNat ≤ 4
    | .ext .vf4 => (c.sew = .e32 ∨ c.sew = .e64) ∧ c.lmulDen.toNat ≤ 2
    | .ext .vf8 => c.sew = .e64 ∧ c.lmulDen.toNat = 1
    | .same | .slide | .move | .maskDst => True

/-- A request is hazardous exactly in the three cases of R336. In an admitted configuration: a masked element-writing
request exactly when me = 1 and vd = 0; vadc, vsbc and vmerge exactly when vd = 0; a move never; a slide when me = 1
and vd = 0, or upwards with vd = vs2; a mask-producing request exactly when LMUL >= 2 and vs2 < vd < vs2 + LMUL or,
in form V, vs1 < vd < vs1 + LMUL. (70_reset_and_hazards.md section 4 (R336, R337, R338, R339).) -/
def Obligations.HazardsAreTheThreeUncheckedOverlaps : Prop :=
  (∀ (k : VClass) (a : Args), k ≠ .maskDst → (hazard (maskedPlan k a) ≠ none ↔ a.me = true ∧ a.vd = 0)) ∧
  (∀ (k : ExtFactor) (o : OpExt), hazard (extPlan k o) ≠ none ↔ o.me = true ∧ o.vd = 0) ∧
  (∀ a : Args, hazard (carryPlan a) ≠ none ↔ a.vd = 0) ∧
  (∀ a : MoveArgs, hazard (movePlan a) = none) ∧
  (∀ (up : Bool) (a : Args), hazard (slidePlan up a) ≠ none ↔ a.me = true ∧ a.vd = 0 ∨ up = true ∧ a.vd = a.vs2) ∧
  ∀ a : Args, cfgError .maskDst a.cfg = none →
    let num := a.cfg.lmulNum.toNat
    let den := a.cfg.lmulDen.toNat
    let within := fun v : VReg => v.val < a.vd.val ∧ a.vd.val * den < v.val * den + num
    (hazard (maskedPlan .maskDst a) ≠ none ↔ 2 * den ≤ num ∧ (within a.vs2 ∨ ∃ v, a.rhs = .vec v ∧ within v))

/-- The right operand: the vs1 element, the scalar brought to 64 bits by sign extension from XLEN and truncated, or the
extended immediate. At an operand width of 1, 2, 4 or 8 bytes: form V takes element i of vs1; form X takes the low
bits of RS1 read as a signed XLEN-bit number; a signed immediate keeps its value -16..15 modulo 2^W; an unsigned one
its value 0..31. Forms X and I give the same operand for every element. (R107.) -/
def Obligations.RightOperandOfEachForm : Prop :=
  ∀ (s : State) (m : Memory) (i j w : Nat), w ∈ [1, 2, 4, 8] →
    (∀ v, rhsValue s m (.vec v) i w = readElem s.params.vlenb m v i w) ∧
    (s.params.xlen = .x64 → rhsValue s m .scalar i w = BitVec.ofInt (8 * w) s.port.rs1.toInt) ∧
    (s.params.xlen = .x32 → rhsValue s m .scalar i w = BitVec.ofInt (8 * w) (s.port.rs1.setWidth 32).toInt) ∧
    (∀ imm, (rhsValue s m (.simm imm) i w).toInt = imm.toInt) ∧
    (∀ imm, (rhsValue s m (.uimm imm) i w).toNat = imm.toNat) ∧
    ∀ r : Rhs, r.reg = none → rhsValue s m r i w = rhsValue s m r j w

/-- With XLEN = 32 the upper half of RS1 has no influence on any request. If XLEN = 32 and two scalars agree in their
low 32 bits, every instruction answers the same with either: the same register file, response and all, or the same
refusal. (30_encoding.md section 2 (R78); 93_implementation_defined.md U13.) -/
def Obligations.UpperScalarBitsAreIgnoredAtXlen32 : Prop :=
  ∀ (i : Instr) (s : State) (r : Scalar), s.params.xlen = .x32 → r.setWidth 32 = s.port.rs1.setWidth 32 →
    let s' : State := { s with port := { s.port with rs1 := r } }
    (∀ t, exec i s = .next t → exec i s' = .next { t with port := s'.port }) ∧
    (∀ e, exec i s = .refused e → exec i s' = .refused e)

/-- vadd, vsub and vrsub: results, response and frame, every form. vadd writes a + b, vsub a - b and vrsub b - a,
wrapped to SEW, where a is the vs2 element and b the right operand; only the written elements and the response
change. Forms, operation ids, validation class, results, response, statuses and what stays unchanged are stated for
every admitted request without hazard, and the status for every admitted request that fails validation. (R131; R132;
R133.) -/
def Obligations.AddAndSubtractResults : Prop :=
  let add := fun (W : Nat) (a b _ : BitVec W) => BitVec.ofInt W (a.toNat + b.toNat)
  let sub := fun (W : Nat) (a b _ : BitVec W) => BitVec.ofInt W (a.toNat - b.toNat)
  let rsub := fun (W : Nat) (a b _ : BitVec W) => BitVec.ofInt W (b.toNat - a.toNat)
  (∀ o, HasCode (.vaddVV o) 0x00 0 ∧ PerformsSame (.vaddVV o) (argsVV o) add) ∧
  (∀ o, HasCode (.vaddVX o) 0x00 1 ∧ PerformsSame (.vaddVX o) (argsVX o) add) ∧
  (∀ o, HasCode (.vaddVI o) 0x00 2 ∧ PerformsSame (.vaddVI o) (argsVIs o) add) ∧
  (∀ o, HasCode (.vsubVV o) 0x01 0 ∧ PerformsSame (.vsubVV o) (argsVV o) sub) ∧
  (∀ o, HasCode (.vsubVX o) 0x01 1 ∧ PerformsSame (.vsubVX o) (argsVX o) sub) ∧
  (∀ o, HasCode (.vrsubVX o) 0x02 1 ∧ PerformsSame (.vrsubVX o) (argsVX o) rsub) ∧
  (∀ o, HasCode (.vrsubVI o) 0x02 2 ∧ PerformsSame (.vrsubVI o) (argsVIs o) rsub)

/-- vand, vor and vxor: results, response and frame, every form. vand, vor and vxor write the bitwise operation of the
vs2 element and the right operand. Forms, operation ids, validation class, results, response, statuses and what
stays unchanged are stated for every admitted request without hazard, and the status for every admitted request that
fails validation. (R134; R135; R136.) -/
def Obligations.LogicResults : Prop :=
  let conj := fun (W : Nat) (a b _ : BitVec W) => BitVec.ofNat W (a.toNat &&& b.toNat)
  let disj := fun (W : Nat) (a b _ : BitVec W) => BitVec.ofNat W (a.toNat ||| b.toNat)
  let excl := fun (W : Nat) (a b _ : BitVec W) => BitVec.ofNat W (a.toNat ^^^ b.toNat)
  (∀ o, HasCode (.vandVV o) 0x03 0 ∧ PerformsSame (.vandVV o) (argsVV o) conj) ∧
  (∀ o, HasCode (.vandVX o) 0x03 1 ∧ PerformsSame (.vandVX o) (argsVX o) conj) ∧
  (∀ o, HasCode (.vandVI o) 0x03 2 ∧ PerformsSame (.vandVI o) (argsVIs o) conj) ∧
  (∀ o, HasCode (.vorVV o) 0x04 0 ∧ PerformsSame (.vorVV o) (argsVV o) disj) ∧
  (∀ o, HasCode (.vorVX o) 0x04 1 ∧ PerformsSame (.vorVX o) (argsVX o) disj) ∧
  (∀ o, HasCode (.vorVI o) 0x04 2 ∧ PerformsSame (.vorVI o) (argsVIs o) disj) ∧
  (∀ o, HasCode (.vxorVV o) 0x05 0 ∧ PerformsSame (.vxorVV o) (argsVV o) excl) ∧
  (∀ o, HasCode (.vxorVX o) 0x05 1 ∧ PerformsSame (.vxorVX o) (argsVX o) excl) ∧
  (∀ o, HasCode (.vxorVI o) 0x05 2 ∧ PerformsSame (.vxorVI o) (argsVIs o) excl)

/-- vsll, vsrl and vsra: results, response and frame, every form. The vs2 element is shifted by the low log2(SEW) bits
of the right operand: left, right with zeros, right with copies of the sign (rounding toward minus infinity); the
immediate is unsigned. Forms, operation ids, validation class, results, response, statuses and what stays unchanged
are stated for every admitted request without hazard, and the status for every admitted request that fails
validation. (R137; R138; R139.) -/
def Obligations.ShiftResults : Prop :=
  let left := fun (W : Nat) (a b _ : BitVec W) => BitVec.ofNat W (a.toNat * 2 ^ (b.toNat % W))
  let right := fun (W : Nat) (a b _ : BitVec W) => BitVec.ofNat W (a.toNat / 2 ^ (b.toNat % W))
  let arith := fun (W : Nat) (a b _ : BitVec W) => BitVec.ofInt W (Int.fdiv a.toInt (2 ^ (b.toNat % W)))
  (∀ o, HasCode (.vsllVV o) 0x06 0 ∧ PerformsSame (.vsllVV o) (argsVV o) left) ∧
  (∀ o, HasCode (.vsllVX o) 0x06 1 ∧ PerformsSame (.vsllVX o) (argsVX o) left) ∧
  (∀ o, HasCode (.vsllVI o) 0x06 2 ∧ PerformsSame (.vsllVI o) (argsVIu o) left) ∧
  (∀ o, HasCode (.vsrlVV o) 0x07 0 ∧ PerformsSame (.vsrlVV o) (argsVV o) right) ∧
  (∀ o, HasCode (.vsrlVX o) 0x07 1 ∧ PerformsSame (.vsrlVX o) (argsVX o) right) ∧
  (∀ o, HasCode (.vsrlVI o) 0x07 2 ∧ PerformsSame (.vsrlVI o) (argsVIu o) right) ∧
  (∀ o, HasCode (.vsraVV o) 0x08 0 ∧ PerformsSame (.vsraVV o) (argsVV o) arith) ∧
  (∀ o, HasCode (.vsraVX o) 0x08 1 ∧ PerformsSame (.vsraVX o) (argsVX o) arith) ∧
  (∀ o, HasCode (.vsraVI o) 0x08 2 ∧ PerformsSame (.vsraVI o) (argsVIu o) arith)

/-- vminu, vmin, vmaxu and vmax: results, response and frame, every form. The smaller or larger of the vs2 element and
the right operand, read unsigned or signed. Forms, operation ids, validation class, results, response, statuses and
what stays unchanged are stated for every admitted request without hazard, and the status for every admitted request
that fails validation. (R140; R141; R142; R143.) -/
def Obligations.MinMaxResults : Prop :=
  let minu := fun (W : Nat) (a b _ : BitVec W) => if a.toNat ≤ b.toNat then a else b
  let min := fun (W : Nat) (a b _ : BitVec W) => if a.toInt ≤ b.toInt then a else b
  let maxu := fun (W : Nat) (a b _ : BitVec W) => if b.toNat ≤ a.toNat then a else b
  let max := fun (W : Nat) (a b _ : BitVec W) => if b.toInt ≤ a.toInt then a else b
  (∀ o, HasCode (.vminuVV o) 0x09 0 ∧ PerformsSame (.vminuVV o) (argsVV o) minu) ∧
  (∀ o, HasCode (.vminuVX o) 0x09 1 ∧ PerformsSame (.vminuVX o) (argsVX o) minu) ∧
  (∀ o, HasCode (.vminVV o) 0x0A 0 ∧ PerformsSame (.vminVV o) (argsVV o) min) ∧
  (∀ o, HasCode (.vminVX o) 0x0A 1 ∧ PerformsSame (.vminVX o) (argsVX o) min) ∧
  (∀ o, HasCode (.vmaxuVV o) 0x0B 0 ∧ PerformsSame (.vmaxuVV o) (argsVV o) maxu) ∧
  (∀ o, HasCode (.vmaxuVX o) 0x0B 1 ∧ PerformsSame (.vmaxuVX o) (argsVX o) maxu) ∧
  (∀ o, HasCode (.vmaxVV o) 0x0C 0 ∧ PerformsSame (.vmaxVV o) (argsVV o) max) ∧
  (∀ o, HasCode (.vmaxVX o) 0x0C 1 ∧ PerformsSame (.vmaxVX o) (argsVX o) max)

/-- vzext and vsext by 2, 4 and 8: results, response and frame. Element i of vd becomes the zero or sign extension of
element i, SEW/f bits wide, of vs2. Forms, operation ids, validation class, results, response, statuses and what
stays unchanged are stated for every admitted request without hazard, and the status for every admitted request that
fails validation. (R161; R162; R163; R164; R165; R166.) -/
def Obligations.ExtensionResults : Prop :=
  let zext := fun (V W : Nat) (a : BitVec V) => BitVec.ofNat W a.toNat
  let sext := fun (V W : Nat) (a : BitVec V) => BitVec.ofInt W a.toInt
  (∀ o, HasCode (.vzextVf2 o) 0x10 0 ∧ PerformsExt (.vzextVf2 o) .vf2 o zext) ∧
  (∀ o, HasCode (.vzextVf4 o) 0x11 0 ∧ PerformsExt (.vzextVf4 o) .vf4 o zext) ∧
  (∀ o, HasCode (.vzextVf8 o) 0x12 0 ∧ PerformsExt (.vzextVf8 o) .vf8 o zext) ∧
  (∀ o, HasCode (.vsextVf2 o) 0x13 0 ∧ PerformsExt (.vsextVf2 o) .vf2 o sext) ∧
  (∀ o, HasCode (.vsextVf4 o) 0x14 0 ∧ PerformsExt (.vsextVf4 o) .vf4 o sext) ∧
  (∀ o, HasCode (.vsextVf8 o) 0x15 0 ∧ PerformsExt (.vsextVf8 o) .vf8 o sext)

/-- vwaddu, vwadd, vwsubu and vwsub: results, response and frame, every form. Sum and difference of two SEW-wide
elements, read unsigned or signed, written 2*SEW wide. Forms, operation ids, validation class, results, response,
statuses and what stays unchanged are stated for every admitted request without hazard, and the status for every
admitted request that fails validation. (R167; R168; R169; R170.) -/
def Obligations.WideningAddAndSubtractResults : Prop :=
  let addu := fun (W V : Nat) (a b : BitVec W) (_ : BitVec V) => BitVec.ofInt V (a.toNat + b.toNat)
  let add := fun (W V : Nat) (a b : BitVec W) (_ : BitVec V) => BitVec.ofInt V (a.toInt + b.toInt)
  let subu := fun (W V : Nat) (a b : BitVec W) (_ : BitVec V) => BitVec.ofInt V (a.toNat - b.toNat)
  let sub := fun (W V : Nat) (a b : BitVec W) (_ : BitVec V) => BitVec.ofInt V (a.toInt - b.toInt)
  (∀ o, HasCode (.vwadduVV o) 0x18 0 ∧ PerformsWide (.vwadduVV o) (argsVV o) addu) ∧
  (∀ o, HasCode (.vwadduVX o) 0x18 1 ∧ PerformsWide (.vwadduVX o) (argsVX o) addu) ∧
  (∀ o, HasCode (.vwaddVV o) 0x19 0 ∧ PerformsWide (.vwaddVV o) (argsVV o) add) ∧
  (∀ o, HasCode (.vwaddVX o) 0x19 1 ∧ PerformsWide (.vwaddVX o) (argsVX o) add) ∧
  (∀ o, HasCode (.vwsubuVV o) 0x1A 0 ∧ PerformsWide (.vwsubuVV o) (argsVV o) subu) ∧
  (∀ o, HasCode (.vwsubuVX o) 0x1A 1 ∧ PerformsWide (.vwsubuVX o) (argsVX o) subu) ∧
  (∀ o, HasCode (.vwsubVV o) 0x1B 0 ∧ PerformsWide (.vwsubVV o) (argsVV o) sub) ∧
  (∀ o, HasCode (.vwsubVX o) 0x1B 1 ∧ PerformsWide (.vwsubVX o) (argsVX o) sub)

/-- vnsrl and vnsra: results, response and frame, every form. A 2*SEW-wide element of vs2 is shifted right at its full
width by the low log2(2*SEW) bits of the right operand, and the low SEW bits are written. Forms, operation ids,
validation class, results, response, statuses and what stays unchanged are stated for every admitted request without
hazard, and the status for every admitted request that fails validation. (R171; R172.) -/
def Obligations.NarrowingShiftResults : Prop :=
  let logical := fun (V W : Nat) (a : BitVec V) (b : BitVec W) => BitVec.ofNat W (a.toNat / 2 ^ (b.toNat % V))
  let arith := fun (V W : Nat) (a : BitVec V) (b : BitVec W) => BitVec.ofInt W (Int.fdiv a.toInt (2 ^ (b.toNat % V)))
  (∀ o, HasCode (.vnsrlWV o) 0x1C 0 ∧ PerformsNarrow (.vnsrlWV o) (argsVV o) logical) ∧
  (∀ o, HasCode (.vnsrlWX o) 0x1C 1 ∧ PerformsNarrow (.vnsrlWX o) (argsVX o) logical) ∧
  (∀ o, HasCode (.vnsrlWI o) 0x1C 2 ∧ PerformsNarrow (.vnsrlWI o) (argsVIu o) logical) ∧
  (∀ o, HasCode (.vnsraWV o) 0x1D 0 ∧ PerformsNarrow (.vnsraWV o) (argsVV o) arith) ∧
  (∀ o, HasCode (.vnsraWX o) 0x1D 1 ∧ PerformsNarrow (.vnsraWX o) (argsVX o) arith) ∧
  (∀ o, HasCode (.vnsraWI o) 0x1D 2 ∧ PerformsNarrow (.vnsraWI o) (argsVIu o) arith)

/-- vmul, vmulh, vmulhu and vmulhsu: results, response and frame, every form. The low half of the product, or the high
half of the signed, unsigned or signed-by-unsigned product. Forms, operation ids, validation class, results,
response, statuses and what stays unchanged are stated for every admitted request without hazard, and the status for
every admitted request that fails validation. (R191; R192; R193; R194.) -/
def Obligations.MultiplyResults : Prop :=
  let low := fun (W : Nat) (a b _ : BitVec W) => BitVec.ofNat W (a.toNat * b.toNat)
  let highS := fun (W : Nat) (a b _ : BitVec W) => (BitVec.ofInt (2 * W) (a.toInt * b.toInt)).extractLsb' W W
  let highU := fun (W : Nat) (a b _ : BitVec W) => (BitVec.ofNat (2 * W) (a.toNat * b.toNat)).extractLsb' W W
  let highSU := fun (W : Nat) (a b _ : BitVec W) => (BitVec.ofInt (2 * W) (a.toInt * b.toNat)).extractLsb' W W
  (∀ o, HasCode (.vmulVV o) 0x30 0 ∧ PerformsSame (.vmulVV o) (argsVV o) low) ∧
  (∀ o, HasCode (.vmulVX o) 0x30 1 ∧ PerformsSame (.vmulVX o) (argsVX o) low) ∧
  (∀ o, HasCode (.vmulhVV o) 0x31 0 ∧ PerformsSame (.vmulhVV o) (argsVV o) highS) ∧
  (∀ o, HasCode (.vmulhVX o) 0x31 1 ∧ PerformsSame (.vmulhVX o) (argsVX o) highS) ∧
  (∀ o, HasCode (.vmulhuVV o) 0x32 0 ∧ PerformsSame (.vmulhuVV o) (argsVV o) highU) ∧
  (∀ o, HasCode (.vmulhuVX o) 0x32 1 ∧ PerformsSame (.vmulhuVX o) (argsVX o) highU) ∧
  (∀ o, HasCode (.vmulhsuVV o) 0x33 0 ∧ PerformsSame (.vmulhsuVV o) (argsVV o) highSU) ∧
  (∀ o, HasCode (.vmulhsuVX o) 0x33 1 ∧ PerformsSame (.vmulhsuVX o) (argsVX o) highSU)

/-- vdivu, vdiv, vremu and vrem: results, response and frame, every form, zero divisor and overflow included. Quotient
toward zero and its remainder; all ones and the dividend for a zero divisor; the dividend and 0 for -2^(SEW-1) by
-1. Never a status. Forms, operation ids, validation class, results, response, statuses and what stays unchanged are
stated for every admitted request without hazard, and the status for every admitted request that fails validation.
(R195; R196; R197; R198.) -/
def Obligations.DivideAndRemainderResults : Prop :=
  let divu := fun (W : Nat) (a b _ : BitVec W) => if b.toNat = 0 then BitVec.allOnes W else BitVec.ofNat W (a.toNat / b.toNat)
  let div := fun (W : Nat) (a b _ : BitVec W) => if b.toInt = 0 then BitVec.allOnes W else
    if a.toInt = -2 ^ (W - 1) ∧ b.toInt = -1 then a else BitVec.ofInt W (Int.tdiv a.toInt b.toInt)
  let remu := fun (W : Nat) (a b _ : BitVec W) => if b.toNat = 0 then a else BitVec.ofNat W (a.toNat % b.toNat)
  let rem := fun (W : Nat) (a b _ : BitVec W) => if b.toInt = 0 then a else
    if a.toInt = -2 ^ (W - 1) ∧ b.toInt = -1 then 0 else BitVec.ofInt W (a.toInt - Int.tdiv a.toInt b.toInt * b.toInt)
  (∀ o, HasCode (.vdivuVV o) 0x34 0 ∧ PerformsSame (.vdivuVV o) (argsVV o) divu) ∧
  (∀ o, HasCode (.vdivuVX o) 0x34 1 ∧ PerformsSame (.vdivuVX o) (argsVX o) divu) ∧
  (∀ o, HasCode (.vdivVV o) 0x35 0 ∧ PerformsSame (.vdivVV o) (argsVV o) div) ∧
  (∀ o, HasCode (.vdivVX o) 0x35 1 ∧ PerformsSame (.vdivVX o) (argsVX o) div) ∧
  (∀ o, HasCode (.vremuVV o) 0x36 0 ∧ PerformsSame (.vremuVV o) (argsVV o) remu) ∧
  (∀ o, HasCode (.vremuVX o) 0x36 1 ∧ PerformsSame (.vremuVX o) (argsVX o) remu) ∧
  (∀ o, HasCode (.vremVV o) 0x37 0 ∧ PerformsSame (.vremVV o) (argsVV o) rem) ∧
  (∀ o, HasCode (.vremVX o) 0x37 1 ∧ PerformsSame (.vremVX o) (argsVX o) rem)

/-- vwmulu, vwmul and vwmulsu: results, response and frame, every form. The exact product of two SEW-wide elements with
the stated signs, written 2*SEW wide. Forms, operation ids, validation class, results, response, statuses and what
stays unchanged are stated for every admitted request without hazard, and the status for every admitted request that
fails validation. (R199; R200; R201.) -/
def Obligations.WideningMultiplyResults : Prop :=
  let mulu := fun (W V : Nat) (a b : BitVec W) (_ : BitVec V) => BitVec.ofInt V (a.toNat * b.toNat)
  let mul := fun (W V : Nat) (a b : BitVec W) (_ : BitVec V) => BitVec.ofInt V (a.toInt * b.toInt)
  let mulsu := fun (W V : Nat) (a b : BitVec W) (_ : BitVec V) => BitVec.ofInt V (a.toInt * b.toNat)
  (∀ o, HasCode (.vwmuluVV o) 0x38 0 ∧ PerformsWide (.vwmuluVV o) (argsVV o) mulu) ∧
  (∀ o, HasCode (.vwmuluVX o) 0x38 1 ∧ PerformsWide (.vwmuluVX o) (argsVX o) mulu) ∧
  (∀ o, HasCode (.vwmulVV o) 0x39 0 ∧ PerformsWide (.vwmulVV o) (argsVV o) mul) ∧
  (∀ o, HasCode (.vwmulVX o) 0x39 1 ∧ PerformsWide (.vwmulVX o) (argsVX o) mul) ∧
  (∀ o, HasCode (.vwmulsuVV o) 0x3A 0 ∧ PerformsWide (.vwmulsuVV o) (argsVV o) mulsu) ∧
  (∀ o, HasCode (.vwmulsuVX o) 0x3A 1 ∧ PerformsWide (.vwmulsuVX o) (argsVX o) mulsu)

/-- vmacc, vnmsac, vmadd and vnmsub: results, response and frame, every form. d + a*b, d - a*b, a + d*b and a - d*b
modulo 2^SEW, d the old destination element. Forms, operation ids, validation class, results, response, statuses and
what stays unchanged are stated for every admitted request without hazard, and the status for every admitted request
that fails validation. (R202; R203; R204; R205.) -/
def Obligations.MultiplyAccumulateResults : Prop :=
  let macc := fun (W : Nat) (a b d : BitVec W) => BitVec.ofInt W (d.toNat + a.toNat * b.toNat)
  let nmsac := fun (W : Nat) (a b d : BitVec W) => BitVec.ofInt W (d.toNat - a.toNat * b.toNat)
  let madd := fun (W : Nat) (a b d : BitVec W) => BitVec.ofInt W (a.toNat + d.toNat * b.toNat)
  let nmsub := fun (W : Nat) (a b d : BitVec W) => BitVec.ofInt W (a.toNat - d.toNat * b.toNat)
  (∀ o, HasCode (.vmaccVV o) 0x40 0 ∧ PerformsSame (.vmaccVV o) (argsVV o) macc) ∧
  (∀ o, HasCode (.vmaccVX o) 0x40 1 ∧ PerformsSame (.vmaccVX o) (argsVX o) macc) ∧
  (∀ o, HasCode (.vnmsacVV o) 0x41 0 ∧ PerformsSame (.vnmsacVV o) (argsVV o) nmsac) ∧
  (∀ o, HasCode (.vnmsacVX o) 0x41 1 ∧ PerformsSame (.vnmsacVX o) (argsVX o) nmsac) ∧
  (∀ o, HasCode (.vmaddVV o) 0x42 0 ∧ PerformsSame (.vmaddVV o) (argsVV o) madd) ∧
  (∀ o, HasCode (.vmaddVX o) 0x42 1 ∧ PerformsSame (.vmaddVX o) (argsVX o) madd) ∧
  (∀ o, HasCode (.vnmsubVV o) 0x43 0 ∧ PerformsSame (.vnmsubVV o) (argsVV o) nmsub) ∧
  (∀ o, HasCode (.vnmsubVX o) 0x43 1 ∧ PerformsSame (.vnmsubVX o) (argsVX o) nmsub)

/-- vwmaccu, vwmacc, vwmaccsu and vwmaccus: results, response and frame, every form. The old 2*SEW-wide destination
element plus the product of two SEW-wide elements with the stated signs, modulo 2^(2*SEW); vwmaccus exists in form X
only. Forms, operation ids, validation class, results, response, statuses and what stays unchanged are stated for
every admitted request without hazard, and the status for every admitted request that fails validation. (R206; R207;
R208; R209.) -/
def Obligations.WideningMultiplyAccumulateResults : Prop :=
  let maccu := fun (W V : Nat) (a b : BitVec W) (d : BitVec V) => BitVec.ofInt V (d.toNat + b.toNat * a.toNat)
  let macc := fun (W V : Nat) (a b : BitVec W) (d : BitVec V) => BitVec.ofInt V (d.toNat + b.toInt * a.toInt)
  let maccsu := fun (W V : Nat) (a b : BitVec W) (d : BitVec V) => BitVec.ofInt V (d.toNat + b.toInt * a.toNat)
  let maccus := fun (W V : Nat) (a b : BitVec W) (d : BitVec V) => BitVec.ofInt V (d.toNat + b.toNat * a.toInt)
  (∀ o, HasCode (.vwmaccuVV o) 0x44 0 ∧ PerformsWide (.vwmaccuVV o) (argsVV o) maccu) ∧
  (∀ o, HasCode (.vwmaccuVX o) 0x44 1 ∧ PerformsWide (.vwmaccuVX o) (argsVX o) maccu) ∧
  (∀ o, HasCode (.vwmaccVV o) 0x45 0 ∧ PerformsWide (.vwmaccVV o) (argsVV o) macc) ∧
  (∀ o, HasCode (.vwmaccVX o) 0x45 1 ∧ PerformsWide (.vwmaccVX o) (argsVX o) macc) ∧
  (∀ o, HasCode (.vwmaccsuVV o) 0x46 0 ∧ PerformsWide (.vwmaccsuVV o) (argsVV o) maccsu) ∧
  (∀ o, HasCode (.vwmaccsuVX o) 0x46 1 ∧ PerformsWide (.vwmaccsuVX o) (argsVX o) maccsu) ∧
  (∀ o, HasCode (.vwmaccusVX o) 0x47 1 ∧ PerformsWide (.vwmaccusVX o) (argsVX o) maccus)

/-- vmseq, vmsne, vmsltu, vmsleu, vmsgtu and vmsgeu: the written mask bits, response and frame, every form. Bit i of vd
is set or cleared by the comparison of element i of vs2 with the right operand for every active index; every other
bit stays. Forms, operation ids, validation class, results, response, statuses and what stays unchanged are stated
for every admitted request without hazard, and the status for every admitted request that fails validation. (R231;
R232; R233; R235; R237; R239.) -/
def Obligations.EqualityAndUnsignedComparisonResults : Prop :=
  let eq := fun (W : Nat) (a b : BitVec W) => decide (a.toNat = b.toNat)
  let ne := fun (W : Nat) (a b : BitVec W) => decide (a.toNat ≠ b.toNat)
  let ltu := fun (W : Nat) (a b : BitVec W) => decide (a.toNat < b.toNat)
  let leu := fun (W : Nat) (a b : BitVec W) => decide (a.toNat ≤ b.toNat)
  let gtu := fun (W : Nat) (a b : BitVec W) => decide (a.toNat > b.toNat)
  let geu := fun (W : Nat) (a b : BitVec W) => decide (a.toNat ≥ b.toNat)
  (∀ o, HasCode (.vmseqVV o) 0x20 0 ∧ PerformsCompare (.vmseqVV o) (argsVV o) eq) ∧
  (∀ o, HasCode (.vmseqVX o) 0x20 1 ∧ PerformsCompare (.vmseqVX o) (argsVX o) eq) ∧
  (∀ o, HasCode (.vmseqVI o) 0x20 2 ∧ PerformsCompare (.vmseqVI o) (argsVIs o) eq) ∧
  (∀ o, HasCode (.vmsneVV o) 0x21 0 ∧ PerformsCompare (.vmsneVV o) (argsVV o) ne) ∧
  (∀ o, HasCode (.vmsneVX o) 0x21 1 ∧ PerformsCompare (.vmsneVX o) (argsVX o) ne) ∧
  (∀ o, HasCode (.vmsneVI o) 0x21 2 ∧ PerformsCompare (.vmsneVI o) (argsVIs o) ne) ∧
  (∀ o, HasCode (.vmsltuVV o) 0x22 0 ∧ PerformsCompare (.vmsltuVV o) (argsVV o) ltu) ∧
  (∀ o, HasCode (.vmsltuVX o) 0x22 1 ∧ PerformsCompare (.vmsltuVX o) (argsVX o) ltu) ∧
  (∀ o, HasCode (.vmsltuVI o) 0x22 2 ∧ PerformsCompare (.vmsltuVI o) (argsVIs o) ltu) ∧
  (∀ o, HasCode (.vmsleuVV o) 0x24 0 ∧ PerformsCompare (.vmsleuVV o) (argsVV o) leu) ∧
  (∀ o, HasCode (.vmsleuVX o) 0x24 1 ∧ PerformsCompare (.vmsleuVX o) (argsVX o) leu) ∧
  (∀ o, HasCode (.vmsleuVI o) 0x24 2 ∧ PerformsCompare (.vmsleuVI o) (argsVIs o) leu) ∧
  (∀ o, HasCode (.vmsgtuVV o) 0x26 0 ∧ PerformsCompare (.vmsgtuVV o) (argsVV o) gtu) ∧
  (∀ o, HasCode (.vmsgtuVX o) 0x26 1 ∧ PerformsCompare (.vmsgtuVX o) (argsVX o) gtu) ∧
  (∀ o, HasCode (.vmsgtuVI o) 0x26 2 ∧ PerformsCompare (.vmsgtuVI o) (argsVIs o) gtu) ∧
  (∀ o, HasCode (.vmsgeuVV o) 0x28 0 ∧ PerformsCompare (.vmsgeuVV o) (argsVV o) geu) ∧
  (∀ o, HasCode (.vmsgeuVX o) 0x28 1 ∧ PerformsCompare (.vmsgeuVX o) (argsVX o) geu) ∧
  (∀ o, HasCode (.vmsgeuVI o) 0x28 2 ∧ PerformsCompare (.vmsgeuVI o) (argsVIs o) geu)

/-- vmslt, vmsle, vmsgt and vmsge: the written mask bits, response and frame, every form. Bit i of vd is set or cleared
by the signed comparison of element i of vs2 with the right operand for every active index; every other bit stays.
Forms, operation ids, validation class, results, response, statuses and what stays unchanged are stated for every
admitted request without hazard, and the status for every admitted request that fails validation. (R234; R236; R238;
R240.) -/
def Obligations.SignedComparisonResults : Prop :=
  let lt := fun (W : Nat) (a b : BitVec W) => decide (a.toInt < b.toInt)
  let le := fun (W : Nat) (a b : BitVec W) => decide (a.toInt ≤ b.toInt)
  let gt := fun (W : Nat) (a b : BitVec W) => decide (a.toInt > b.toInt)
  let ge := fun (W : Nat) (a b : BitVec W) => decide (a.toInt ≥ b.toInt)
  (∀ o, HasCode (.vmsltVV o) 0x23 0 ∧ PerformsCompare (.vmsltVV o) (argsVV o) lt) ∧
  (∀ o, HasCode (.vmsltVX o) 0x23 1 ∧ PerformsCompare (.vmsltVX o) (argsVX o) lt) ∧
  (∀ o, HasCode (.vmsltVI o) 0x23 2 ∧ PerformsCompare (.vmsltVI o) (argsVIs o) lt) ∧
  (∀ o, HasCode (.vmsleVV o) 0x25 0 ∧ PerformsCompare (.vmsleVV o) (argsVV o) le) ∧
  (∀ o, HasCode (.vmsleVX o) 0x25 1 ∧ PerformsCompare (.vmsleVX o) (argsVX o) le) ∧
  (∀ o, HasCode (.vmsleVI o) 0x25 2 ∧ PerformsCompare (.vmsleVI o) (argsVIs o) le) ∧
  (∀ o, HasCode (.vmsgtVV o) 0x27 0 ∧ PerformsCompare (.vmsgtVV o) (argsVV o) gt) ∧
  (∀ o, HasCode (.vmsgtVX o) 0x27 1 ∧ PerformsCompare (.vmsgtVX o) (argsVX o) gt) ∧
  (∀ o, HasCode (.vmsgtVI o) 0x27 2 ∧ PerformsCompare (.vmsgtVI o) (argsVIs o) gt) ∧
  (∀ o, HasCode (.vmsgeVV o) 0x29 0 ∧ PerformsCompare (.vmsgeVV o) (argsVV o) ge) ∧
  (∀ o, HasCode (.vmsgeVX o) 0x29 1 ∧ PerformsCompare (.vmsgeVX o) (argsVX o) ge) ∧
  (∀ o, HasCode (.vmsgeVI o) 0x29 2 ∧ PerformsCompare (.vmsgeVI o) (argsVIs o) ge)

/-- vadc and vsbc: results, response and frame, every form; me is ignored. Every element of [VSTART, VL) becomes a + b +
c or a - b - c modulo 2^SEW, c being bit i of v0, whatever me is. Forms, operation ids, validation class, results,
response, statuses and what stays unchanged are stated for every admitted request without hazard, and the status for
every admitted request that fails validation. (R241; R242.) -/
def Obligations.AddWithCarryResults : Prop :=
  let adc := fun (W : Nat) (a b : BitVec W) (c : Nat) => BitVec.ofNat W (a.toNat + b.toNat + c)
  let sbc := fun (W : Nat) (a b : BitVec W) (c : Nat) => BitVec.ofInt W (a.toNat - b.toNat - c)
  (∀ o, HasCode (.vadcVVM o) 0x50 0 ∧ PerformsCarry (.vadcVVM o) (argsVV o) InLoop adc) ∧
  (∀ o, HasCode (.vadcVXM o) 0x50 1 ∧ PerformsCarry (.vadcVXM o) (argsVX o) InLoop adc) ∧
  (∀ o, HasCode (.vadcVIM o) 0x50 2 ∧ PerformsCarry (.vadcVIM o) (argsVIs o) InLoop adc) ∧
  (∀ o, HasCode (.vsbcVVM o) 0x51 0 ∧ PerformsCarry (.vsbcVVM o) (argsVV o) InLoop sbc) ∧
  (∀ o, HasCode (.vsbcVXM o) 0x51 1 ∧ PerformsCarry (.vsbcVXM o) (argsVX o) InLoop sbc)

/-- vmadc and vmsbc in both modes: the written mask bits, response and frame, every form. Bit i of vd is written for
every index of [VSTART, VL): the carry out of a + b + c, or the borrow out of a - b - c; c is bit i of v0 in the
with-carry-in rows (me = 1) and 0 in the others. Forms, operation ids, validation class, results, response, statuses
and what stays unchanged are stated for every admitted request without hazard, and the status for every admitted
request that fails validation. (R243; R244.) -/
def Obligations.CarryAndBorrowProducerResults : Prop :=
  let carry := fun (W : Nat) (a b : BitVec W) (c : Nat) => decide (2 ^ W ≤ a.toNat + b.toNat + c)
  let borrow := fun (W : Nat) (a b : BitVec W) (c : Nat) => decide (a.toNat < b.toNat + c)
  (∀ o, HasCode (.vmadcVV o) 0x52 0 ∧ PerformsProducer (.vmadcVV o) (argsCV false o) carry) ∧
  (∀ o, HasCode (.vmadcVVM o) 0x52 0 ∧ PerformsProducer (.vmadcVVM o) (argsCV true o) carry) ∧
  (∀ o, HasCode (.vmadcVX o) 0x52 1 ∧ PerformsProducer (.vmadcVX o) (argsCX false o) carry) ∧
  (∀ o, HasCode (.vmadcVXM o) 0x52 1 ∧ PerformsProducer (.vmadcVXM o) (argsCX true o) carry) ∧
  (∀ o, HasCode (.vmadcVI o) 0x52 2 ∧ PerformsProducer (.vmadcVI o) (argsCI false o) carry) ∧
  (∀ o, HasCode (.vmadcVIM o) 0x52 2 ∧ PerformsProducer (.vmadcVIM o) (argsCI true o) carry) ∧
  (∀ o, HasCode (.vmsbcVV o) 0x53 0 ∧ PerformsProducer (.vmsbcVV o) (argsCV false o) borrow) ∧
  (∀ o, HasCode (.vmsbcVVM o) 0x53 0 ∧ PerformsProducer (.vmsbcVVM o) (argsCV true o) borrow) ∧
  (∀ o, HasCode (.vmsbcVX o) 0x53 1 ∧ PerformsProducer (.vmsbcVX o) (argsCX false o) borrow) ∧
  (∀ o, HasCode (.vmsbcVXM o) 0x53 1 ∧ PerformsProducer (.vmsbcVXM o) (argsCX true o) borrow) ∧
  (∀ o, (encode (.vmadcVV o)).getLsbD 10 = false) ∧
  (∀ o, (encode (.vmadcVVM o)).getLsbD 10 = true) ∧
  (∀ o, (encode (.vmadcVX o)).getLsbD 10 = false) ∧
  (∀ o, (encode (.vmadcVXM o)).getLsbD 10 = true) ∧
  (∀ o, (encode (.vmadcVI o)).getLsbD 10 = false) ∧
  (∀ o, (encode (.vmadcVIM o)).getLsbD 10 = true) ∧
  (∀ o, (encode (.vmsbcVV o)).getLsbD 10 = false) ∧
  (∀ o, (encode (.vmsbcVVM o)).getLsbD 10 = true) ∧
  (∀ o, (encode (.vmsbcVX o)).getLsbD 10 = false) ∧
  (∀ o, (encode (.vmsbcVXM o)).getLsbD 10 = true)

/-- vmerge: results, response and frame, every form; VSTART and me are ignored. Every element of [0, VL), below VSTART
too, takes the right operand where the bit of v0 is 1 and the vs2 element where it is 0. Forms, operation ids,
validation class, results, response, statuses and what stays unchanged are stated for every admitted request without
hazard, and the status for every admitted request that fails validation. (R260.) -/
def Obligations.MergeResults : Prop :=
  let sel := fun (W : Nat) (a b : BitVec W) (c : Nat) => if c = 1 then b else a
  (∀ o, HasCode (.vmergeVVM o) 0x60 0 ∧ PerformsCarry (.vmergeVVM o) (argsVV o) (fun s k => k < s.port.vl) sel) ∧
  (∀ o, HasCode (.vmergeVXM o) 0x60 1 ∧ PerformsCarry (.vmergeVXM o) (argsVX o) (fun s k => k < s.port.vl) sel) ∧
  (∀ o, HasCode (.vmergeVIM o) 0x60 2 ∧ PerformsCarry (.vmergeVIM o) (argsVIs o) (fun s k => k < s.port.vl) sel)

/-- vmv.v: results, response and frame, every form; v0 is not read and me is ignored. Every element of [VSTART, VL)
becomes the vs1 element, the scalar or the immediate; vd = v0 is legal. Forms, operation ids, validation class,
results, response, statuses and what stays unchanged are stated for every admitted request without hazard, and the
status for every admitted request that fails validation. (R261.) -/
def Obligations.MoveResults : Prop :=
  (∀ o, HasCode (.vmvVV o) 0x61 0 ∧ PerformsMove (.vmvVV o) (argsMvV o)) ∧
  (∀ o, HasCode (.vmvVX o) 0x61 1 ∧ PerformsMove (.vmvVX o) (argsMvX o)) ∧
  (∀ o, HasCode (.vmvVI o) 0x61 2 ∧ PerformsMove (.vmvVI o) (argsMvI o))

/-- vslideup, vslidedown, vslide1up and vslide1down: results, response and frame, every form. Slide-up writes element k
- OFFSET of vs2 to every active k >= OFFSET; slide-down writes element k + OFFSET where it is below VLMAX and 0
elsewhere; the slides by one put the scalar at element 0 or VL - 1. OFFSET is the unsigned XLEN-bit scalar, not
truncated to SEW, or the unsigned immediate. Forms, operation ids, validation class, results, response, statuses and
what stays unchanged are stated for every admitted request without hazard, and the status for every admitted request
that fails validation. (R263; R264; R265; R266.) -/
def Obligations.SlideResults : Prop :=
  (∀ o, HasCode (.vslideupVX o) 0x68 1 ∧ PerformsSlide (.vslideupVX o) true (argsVX o)
    (fun s => s.port.rs1.toNat % 2 ^ s.params.xlen.bits)
    (fun s k => opL s o.vs2 (sewb o.cfg.sew) (k - s.port.rs1.toNat % 2 ^ s.params.xlen.bits))) ∧
  (∀ o, HasCode (.vslideupVI o) 0x68 2 ∧ PerformsSlide (.vslideupVI o) true (argsVIu o)
    (fun _ => o.imm.toNat)
    (fun s k => opL s o.vs2 (sewb o.cfg.sew) (k - o.imm.toNat))) ∧
  (∀ o, HasCode (.vslidedownVX o) 0x69 1 ∧ PerformsSlide (.vslidedownVX o) false (argsVX o)
    (fun _ => 0)
    (fun s k => if k + s.port.rs1.toNat % 2 ^ s.params.xlen.bits < vlmax s.params o.cfg
      then opL s o.vs2 (sewb o.cfg.sew) (k + s.port.rs1.toNat % 2 ^ s.params.xlen.bits) else 0)) ∧
  (∀ o, HasCode (.vslidedownVI o) 0x69 2 ∧ PerformsSlide (.vslidedownVI o) false (argsVIu o)
    (fun _ => 0)
    (fun s k => if k + o.imm.toNat < vlmax s.params o.cfg then opL s o.vs2 (sewb o.cfg.sew) (k + o.imm.toNat) else 0)) ∧
  (∀ o, HasCode (.vslide1upVX o) 0x6A 1 ∧ PerformsSlide (.vslide1upVX o) true (argsVX o)
    (fun _ => 0)
    (fun s k => if k = 0 then opR s .scalar (sewb o.cfg.sew) k else opL s o.vs2 (sewb o.cfg.sew) (k - 1))) ∧
  (∀ o, HasCode (.vslide1downVX o) 0x6B 1 ∧ PerformsSlide (.vslide1downVX o) false (argsVX o)
    (fun _ => 0)
    (fun s k => if k + 1 = s.port.vl then opR s .scalar (sewb o.cfg.sew) k
      else opL s o.vs2 (sewb o.cfg.sew) (k + 1)))

/-- vsaddu, vsadd, vssubu and vssub: clamped results, the SAT bit, response and frame, every form. The exact sum or
difference clamped to the unsigned or signed range of SEW; SAT is 1 exactly when some element that is written was
clamped (an inactive, prestart or tail element does not count). Forms, operation ids, validation class, results,
response, statuses and what stays unchanged are stated for every admitted request without hazard, and the status for
every admitted request that fails validation. (R280; R281; R282; R283; R284; R285.) -/
def Obligations.SaturatingResults : Prop :=
  let addu := fun (W : Nat) (a b : BitVec W) => BitVec.ofNat W (min (a.toNat + b.toNat) (2 ^ W - 1))
  let adduSat := fun (W : Nat) (a b : BitVec W) => 2 ^ W - 1 < a.toNat + b.toNat
  let add := fun (W : Nat) (a b : BitVec W) => BitVec.ofInt W (max (-2 ^ (W - 1)) (min (a.toInt + b.toInt) (2 ^ (W - 1) - 1)))
  let addSat := fun (W : Nat) (a b : BitVec W) => a.toInt + b.toInt < -2 ^ (W - 1) ∨ 2 ^ (W - 1) - 1 < a.toInt + b.toInt
  let subu := fun (W : Nat) (a b : BitVec W) => BitVec.ofNat W (a.toNat - b.toNat)
  let subuSat := fun (W : Nat) (a b : BitVec W) => a.toNat < b.toNat
  let sub := fun (W : Nat) (a b : BitVec W) => BitVec.ofInt W (max (-2 ^ (W - 1)) (min (a.toInt - b.toInt) (2 ^ (W - 1) - 1)))
  let subSat := fun (W : Nat) (a b : BitVec W) => a.toInt - b.toInt < -2 ^ (W - 1) ∨ 2 ^ (W - 1) - 1 < a.toInt - b.toInt
  (∀ o, HasCode (.vsadduVV o) 0x58 0 ∧ PerformsSat (.vsadduVV o) (argsVV o) addu adduSat) ∧
  (∀ o, HasCode (.vsadduVX o) 0x58 1 ∧ PerformsSat (.vsadduVX o) (argsVX o) addu adduSat) ∧
  (∀ o, HasCode (.vsadduVI o) 0x58 2 ∧ PerformsSat (.vsadduVI o) (argsVIs o) addu adduSat) ∧
  (∀ o, HasCode (.vsaddVV o) 0x59 0 ∧ PerformsSat (.vsaddVV o) (argsVV o) add addSat) ∧
  (∀ o, HasCode (.vsaddVX o) 0x59 1 ∧ PerformsSat (.vsaddVX o) (argsVX o) add addSat) ∧
  (∀ o, HasCode (.vsaddVI o) 0x59 2 ∧ PerformsSat (.vsaddVI o) (argsVIs o) add addSat) ∧
  (∀ o, HasCode (.vssubuVV o) 0x5A 0 ∧ PerformsSat (.vssubuVV o) (argsVV o) subu subuSat) ∧
  (∀ o, HasCode (.vssubuVX o) 0x5A 1 ∧ PerformsSat (.vssubuVX o) (argsVX o) subu subuSat) ∧
  (∀ o, HasCode (.vssubVV o) 0x5B 0 ∧ PerformsSat (.vssubVV o) (argsVV o) sub subSat) ∧
  (∀ o, HasCode (.vssubVX o) 0x5B 1 ∧ PerformsSat (.vssubVX o) (argsVX o) sub subSat)

/-- vaaddu, vaadd, vasubu and vasub: rounded results, response and frame, every form. Half of the exact sum or
difference, unsigned or signed, rounded in the mode of the request (rnu, rne, rdn, rod), wrapped to SEW; SAT is 0.
Forms, operation ids, validation class, results, response, statuses and what stays unchanged are stated for every
admitted request without hazard, and the status for every admitted request that fails validation. (R286; R287; R288;
R289; R290.) -/
def Obligations.AveragingResults : Prop :=
  let sumU := fun (mode : RoundMode) (W : Nat) (a b _ : BitVec W) => BitVec.ofInt W (roundedHalf mode (a.toNat + b.toNat))
  let sumS := fun (mode : RoundMode) (W : Nat) (a b _ : BitVec W) => BitVec.ofInt W (roundedHalf mode (a.toInt + b.toInt))
  let diffU := fun (mode : RoundMode) (W : Nat) (a b _ : BitVec W) => BitVec.ofInt W (roundedHalf mode (a.toNat - b.toNat))
  let diffS := fun (mode : RoundMode) (W : Nat) (a b _ : BitVec W) => BitVec.ofInt W (roundedHalf mode (a.toInt - b.toInt))
  (∀ o, HasCode (.vaadduVV o) 0x5C 0 ∧ PerformsSame (.vaadduVV o) (argsVV o) (sumU o.cfg.vxrm)) ∧
  (∀ o, HasCode (.vaadduVX o) 0x5C 1 ∧ PerformsSame (.vaadduVX o) (argsVX o) (sumU o.cfg.vxrm)) ∧
  (∀ o, HasCode (.vaaddVV o) 0x5D 0 ∧ PerformsSame (.vaaddVV o) (argsVV o) (sumS o.cfg.vxrm)) ∧
  (∀ o, HasCode (.vaaddVX o) 0x5D 1 ∧ PerformsSame (.vaaddVX o) (argsVX o) (sumS o.cfg.vxrm)) ∧
  (∀ o, HasCode (.vasubuVV o) 0x5E 0 ∧ PerformsSame (.vasubuVV o) (argsVV o) (diffU o.cfg.vxrm)) ∧
  (∀ o, HasCode (.vasubuVX o) 0x5E 1 ∧ PerformsSame (.vasubuVX o) (argsVX o) (diffU o.cfg.vxrm)) ∧
  (∀ o, HasCode (.vasubVV o) 0x5F 0 ∧ PerformsSame (.vasubVV o) (argsVV o) (diffS o.cfg.vxrm)) ∧
  (∀ o, HasCode (.vasubVX o) 0x5F 1 ∧ PerformsSame (.vasubVX o) (argsVX o) (diffS o.cfg.vxrm)) ∧
  RoundMode.field .rnu = 0 ∧ RoundMode.field .rne = 1 ∧ RoundMode.field .rdn = 2 ∧ RoundMode.field .rod = 3 ∧
  ∀ i : Instr, (encode i).extractLsb' 36 2 = (planOf i).cfg.vxrm.field

/-- The carry and borrow of an element equal the bit equations on the most significant bits. At width 8, 16, 32 or 64
the carry out is (am & bm) | ((am ^ bm) & ~rm) and the borrow out is (~am & bm) | (~(am ^ bm) & rm), with am, bm, rm
the top bits of the operands and of the wrapped result, and they are U(a)+U(b)+c >= 2^W and U(a) < U(b)+c. (R245.) -/
def Obligations.CarryAndBorrowBitEquations : Prop :=
  ∀ (W : Nat) (a b : BitVec W) (c : Bool), W ∈ [8, 16, 32, 64] →
    let am := a.msb
    let bm := b.msb
    let ra := (vadcElem W a b c).msb
    let rs := (vsbcElem W a b c).msb
    vmadcBit W a b c = (am && bm || (am ^^ bm) && !ra) ∧
    vmsbcBit W a b c = (!am && bm || !(am ^^ bm) && rs) ∧
    (vmadcBit W a b c = true ↔ 2 ^ W ≤ a.toNat + b.toNat + c.toNat) ∧
    (vmsbcBit W a b c = true ↔ a.toNat < b.toNat + c.toNat)

/-- What the four rounding modes do to a half. An even value is halved exactly in every mode. An odd value: rnu rounds
up, rdn rounds down, rne gives the even neighbour, rod gives the odd neighbour. (46_fixed_point.md section 2
(R286).) -/
def Obligations.RoundingModesRoundAsNamed : Prop :=
  ∀ v : Int,
    (v % 2 = 0 → ∀ mode, 2 * average mode v = v) ∧
    (v % 2 = 1 → 2 * average .rnu v = v + 1 ∧ 2 * average .rdn v = v - 1 ∧
      (average .rne v % 2 = 0 ∧ (2 * average .rne v = v + 1 ∨ 2 * average .rne v = v - 1)) ∧
      (average .rod v % 2 = 1 ∧ (2 * average .rod v = v + 1 ∨ 2 * average .rod v = v - 1)))

/-- Outside the two special cases, dividend = quotient * divisor + remainder, and the remainder is smaller than the
divisor and has the dividend's sign. For W-bit operands with W > 0, a non-zero divisor and not the overflow case,
the results of vdiv and vrem read as signed numbers satisfy the division identity; |r| < |b|; r is zero or has the
sign of a. (43_multiply_divide_mac.md section 3 (R196, R198).) -/
def Obligations.SignedDivisionIdentity : Prop :=
  ∀ (W : Nat) (a b : BitVec W), 0 < W → b.toInt ≠ 0 → ¬ (a.toInt = -2 ^ (W - 1) ∧ b.toInt = -1) →
    a.toInt = (vdivElem W a b).toInt * b.toInt + (vremElem W a b).toInt ∧
    |(vremElem W a b).toInt| < |b.toInt| ∧
    ((vremElem W a b).toInt = 0 ∨ ((vremElem W a b).toInt < 0 ↔ a.toInt < 0))

/-- With VSTART >= VL (VL = 0 included) a successful request of any instruction but vmerge writes nothing. For every
instruction other than the three vmerge forms: if the request would be carried out and VSTART >= VL, it responds
NO_EXCEPT with SAT = 0 and the register file, VSTART itself and all else are as before. vmerge with VL = 0 writes
nothing either. (40_common.md section 2 (R104, R105).) -/
def Obligations.NothingIsWrittenFromVstartAtOrPastVl : Prop :=
  ∀ (i : Instr) (s : State), Runs (planOf i) s → s.port.vl ≤ s.port.vstart →
    ((∀ o, i ≠ .vmergeVVM o) ∧ (∀ o, i ≠ .vmergeVXM o) ∧ (∀ o, i ≠ .vmergeVIM o)) ∨ s.port.vl = 0 →
    exec i s = .next { s with response := some ⟨.noExcept, false⟩ }

/-- Whatever a request does, every byte outside the registers of its destination group reads as before. For every
instruction, every good state and every next state: an address outside the registers vd .. vd + nreg(EMUL(vd)) - 1
(one register for a mask destination) reads as it did. (40_common.md section 4 (R111); 20_memory.md section 3
(R49).) -/
def Obligations.OnlyTheDestinationGroupIsWritten : Prop :=
  ∀ (i : Instr) (s t : State), s.inv → exec i s = .next t →
    ∀ x, ¬ InDestination (planOf i) s.params.vlenb x → Memory.read t.vrf x = Memory.read s.vrf x

/-- A request changes nothing of State but the register file and the response, and it always responds. For every
instruction that answers a next state: the parameters, the request port, the host port's answer, the coming host
actions and the free-value counter are as before, and a response is present. The rules say that a request changes
the register file and is answered; that the request port and the host port's answer are kept is the model's choice
(DESIGN CHOICE, logs 3 and 4), and the coming actions and the free-value counter are the model's own fields (logs 1
and 6). (10_state.md section 4 (R33); 00_scope.md section 7 (R12); 10_state.md section 2 (R25, R26).) -/
def Obligations.RequestsChangeOnlyRegisterFileAndResponse : Prop :=
  ∀ (i : Instr) (s t : State), exec i s = .next t →
    t = { s with vrf := t.vrf, response := t.response } ∧ ∃ r, t.response = some r

/-- The new register file, STATUS and SAT depend only on the register file, the request port and the parameters. If two
states agree in the parameters, the register file and the request port, then every instruction answers both alike:
the same new register file and response, or the same refusal; the response left over from before, the host port's
answer, the coming actions and the free-value counter are not read. (R118.) -/
def Obligations.RequestIsAFunctionOfItsInputs : Prop :=
  ∀ (i : Instr) (s s' : State), s.params = s'.params → s.vrf = s'.vrf → s.port = s'.port →
    (∀ t, exec i s = .next t → exec i s' = .next { s' with vrf := t.vrf, response := t.response }) ∧
    (∀ e, exec i s = .refused e → exec i s' = .refused e) ∧
    ∀ r, exec i s ≠ .fault r

/-- A host write stores its bytes and nothing else; a host read answers the bytes of the register file. Within the byte
space, a step that takes a HostWrite puts byte k of the data at a + k and leaves every other byte and every other
field but the coming actions; a step that takes a HostRead answers VRF[a .. a+n-1] on the host port and changes
nothing else but the coming actions. That the response port keeps its value meanwhile is the model's choice (log 7),
that the host port keeps its answer too (log 4). (10_state.md section 3 (R29).) -/
def Obligations.HostPortReadsAndWritesTheRegisterFile : Prop :=
  ∀ (s : State) (rest : List HostInput) (a : Nat), s.inv →
    (∀ bytes, s.inputs = .hostWrite a bytes :: rest → a + bytes.length ≤ 32 * s.params.vlenb →
      ∃ t, step s = .next t ∧ t = { s with vrf := t.vrf, inputs := rest } ∧
        (∀ k, k < bytes.length → some (Memory.read t.vrf (a + k)) = bytes[k]?) ∧
        ∀ x, x < a ∨ a + bytes.length ≤ x → Memory.read t.vrf x = Memory.read s.vrf x) ∧
    ∀ n, s.inputs = .hostRead a n :: rest → a + n ≤ 32 * s.params.vlenb →
      step s = .next { s with readData := some ((List.range n).map fun k => Memory.read s.vrf (a + k)), inputs := rest }

/-- A host access that leaves the byte space stops the model with a fault (the model's choice, log 8: R29 gives the
bound and no effect beyond it). A step that takes a HostRead or HostWrite with a + n > 32*VLENB ends in the fault
hostPortOutOfRange. (10_state.md section 3 (R29); 20_memory.md section 1 (R40).) -/
def Obligations.HostAccessOutsideTheByteSpaceFaults : Prop :=
  ∀ (s : State) (rest : List HostInput) (a : Nat),
    (∀ n, s.inputs = .hostRead a n :: rest → 32 * s.params.vlenb < a + n → step s = .fault (.hostPortOutOfRange a n)) ∧
    ∀ bytes, s.inputs = .hostWrite a bytes :: rest → 32 * s.params.vlenb < a + bytes.length →
      step s = .fault (.hostPortOutOfRange a bytes.length)

/-- The reset input leaves no response pending and does not write the register file. A step that takes the reset input
answers a next state with no response, the same register file and the same parameters; the block accepts the next
action. (70_reset_and_hazards.md section 1 (R330).) -/
def Obligations.ResetInputKeepsTheRegisterFile : Prop :=
  ∀ (s : State) (rest : List HostInput), s.inputs = .reset :: rest →
    ∃ t, step s = .next t ∧ t.response = none ∧ t.vrf = s.vrf ∧ t.params = s.params ∧ t.inputs = rest

/-- After reset no response is pending and the block is idle. State.reset holds no response, and with no host action
announced a step leaves the state as it is (the idle step is the model's choice, log 1). (10_state.md section 4
(R32); 70_reset_and_hazards.md section 1 (R331).) -/
def Obligations.StateAfterReset : Prop :=
  State.reset.response = none ∧ ∀ s : State, s.inputs = [] → step s = .next s

/-- A request abandoned by reset leaves every byte outside its destination group as it was; inside it, free bytes (the
model's form, log 6). A step that takes a request and the reset input in the middle of it, where the request would
have been carried out: a next state with no response, the request on the port, the same parameters, every byte
outside the destination group unchanged, and each byte inside it an unconstrained value. Where the request would
have failed validation the register file is unchanged (DEDUCED, log 9). In both cases the host port's answer is
withdrawn and the request port keeps the request (the model's choice, DESIGN CHOICE, logs 4 and 3), and the coming
actions and the free-value counter are the model's own fields (logs 1 and 6). (70_reset_and_hazards.md section 1
(R330, R331); 93_implementation_defined.md U17.) -/
def Obligations.AbandonedRequestLeavesOtherRegisters : Prop :=
  ∀ (s : State) (r : Request) (rest : List HostInput) (i : Instr), s.inv → s.inputs = .abandoned r :: rest →
    decode r.req = .ok i →
    (Runs (planOf i) { s with port := r } →
      ∃ t, step s = .next t ∧
        t = { s with vrf := t.vrf, port := r, response := none, readData := none, inputs := rest, freeCount := s.freeCount + 1 } ∧
        ∀ x, Memory.read t.vrf x =
          if InDestination (planOf i) s.params.vlenb x then Config.abandonedByte s.freeCount x else Memory.read s.vrf x) ∧
    (Admitted (planOf i) { s with port := r } → validate (planOf i) ≠ .noExcept →
      step s = .next { s with port := r, response := none, readData := none, inputs := rest })

/-- A step whose next host action is a request runs the instruction its descriptor decodes to. If the next host action
is a request whose descriptor decodes to i, the step is exec of i in the state with that action taken off and its
four values on the request port. In particular, a state to which withFetchWord gave the descriptor of i next runs i
with the VL, VSTART and RS1 it was driving (log 1). (00_scope.md section 7 (R11); 20_memory.md section 6 (R59);
30_encoding.md section 3 (R79).) -/
def Obligations.StepRunsTheDecodedRequest : Prop :=
  (∀ (s : State) (r : Request) (rest : List HostInput) (i : Instr), s.inputs = .request r :: rest →
    decode r.req = .ok i → step s = exec i { s with port := r, inputs := rest }) ∧
  ∀ (s : State) (i : Instr), decode (encode i) = .ok i →
    step (s.withFetchWord 64 (encode i).toNat) = exec i { s with port := { s.port with req := encode i } }

/-- A step takes exactly the next host action and never changes VLEN or XLEN. For every step that answers a next state:
the coming actions lose exactly their first element and the parameters are the old ones (the list of coming actions
is the model's own field, log 1). (00_scope.md section 4 (R5); 20_memory.md section 6 (R59).) -/
def Obligations.EveryStepTakesOneActionAndKeepsTheParameters : Prop :=
  ∀ s t : State, step s = .next t → t.inputs = s.inputs.tail ∧ t.params = s.params

/-- The register file right after reset is in canonical form and inside the byte space. The invariant of the model holds
at State.reset. (10_state.md section 4 (R32); 20_memory.md section 1 (R40).) -/
def Obligations.InvariantHoldsAtReset : Prop := State.reset.inv

/-- Every step keeps the register file in canonical form with every address inside the byte space. For every state that
meets the invariant, reached or not: if a step (a request of any instruction, successful or failing, a host access,
a reset, an abandoned request) answers a next state, that state meets it too. No request writes outside the 32*VLENB
bytes that exist. (20_memory.md section 1 (R40); 20_memory.md section 3 (R51); 40_common.md section 4 (R113).) -/
def Obligations.EveryStepKeepsTheInvariant : Prop :=
  ∀ s t : State, s.inv → step s = .next t → t.inv
end

