-- ==== Sys2Proof/Laws/Memory.lean ====
section
/-! SUPPORT. Laws of the byte space: what a read sees after a write, and that every memory operation keeps the canonical
form and the bound on addresses. -/

namespace Sys2Proof.Machine

/-! ## Bytes -/

theorem Memory.wfAbove_mono {lo lo' : Nat} {m : Memory} (h : lo' ≤ lo) (hm : Memory.wfAbove lo m = true) :
    Memory.wfAbove lo' m = true := by
  cases m with
  | nil => rfl
  | cons c m =>
    simp only [Memory.wfAbove, Bool.and_eq_true, decide_eq_true_eq] at hm ⊢
    exact ⟨by omega, hm.2⟩

/-- Below its first address a canonical memory reads as unlisted. -/
theorem Memory.read_below {lo a : Nat} {m : Memory} (hm : Memory.wfAbove lo m = true) (h : a < lo) :
    Memory.read m a = Memory.unlisted := by
  induction m generalizing lo with
  | nil => rfl
  | cons c m ih =>
    simp only [Memory.wfAbove, Bool.and_eq_true, decide_eq_true_eq] at hm
    have hne : a ≠ c.1 := by omega
    simp only [Memory.read, if_neg hne]
    exact ih hm.2.2 (by omega)

theorem Memory.wfAbove_write {lo a : Nat} {m : Memory} (v : Byte) (hm : Memory.wfAbove lo m = true) (h : lo ≤ a) :
    Memory.wfAbove lo (Memory.write m a v) = true := by
  induction m generalizing lo with
  | nil =>
    by_cases hv : v = Memory.unlisted <;> simp [Memory.write, hv, Memory.wfAbove, h]
  | cons c m ih =>
    obtain ⟨k, b⟩ := c
    simp only [Memory.wfAbove, Bool.and_eq_true, decide_eq_true_eq, Bool.not_eq_true', decide_eq_false_iff_not] at hm
    obtain ⟨hk, hb, hrest⟩ := hm
    unfold Memory.write
    split
    · split
      · simp [Memory.wfAbove, hk, hb, hrest]
      · rename_i hv
        simp only [Memory.wfAbove, Bool.and_eq_true, decide_eq_true_eq, Bool.not_eq_true', decide_eq_false_iff_not]
        exact ⟨h, hv, by omega, hb, hrest⟩
    · split
      · split
        · exact Memory.wfAbove_mono (by omega) hrest
        · rename_i hv
          simp only [Memory.wfAbove, Bool.and_eq_true, decide_eq_true_eq, Bool.not_eq_true', decide_eq_false_iff_not]
          exact ⟨h, hv, by subst_vars; exact hrest⟩
      · simp only [Memory.wfAbove, Bool.and_eq_true, decide_eq_true_eq, Bool.not_eq_true', decide_eq_false_iff_not]
        exact ⟨hk, hb, ih hrest (by omega)⟩

/-- A one-byte write keeps the canonical form. -/
theorem Memory.wf_write {m : Memory} (hm : Memory.wf m = true) (a : Nat) (v : Byte) :
    Memory.wf (Memory.write m a v) = true :=
  Memory.wfAbove_write v hm (Nat.zero_le a)

theorem Memory.read_writeAbove {lo a : Nat} {m : Memory} (v : Byte) (hm : Memory.wfAbove lo m = true) (x : Nat) :
    Memory.read (Memory.write m a v) x = if x = a then v else Memory.read m x := by
  induction m generalizing lo with
  | nil =>
    by_cases hv : v = Memory.unlisted
    · subst hv; by_cases hx : x = a <;> simp [Memory.write, Memory.read]
    · simp [Memory.write, hv, Memory.read]
  | cons c m ih =>
    obtain ⟨k, b⟩ := c
    simp only [Memory.wfAbove, Bool.and_eq_true, decide_eq_true_eq] at hm
    have hrest := hm.2.2
    unfold Memory.write
    by_cases hak : a < k
    · rw [if_pos hak]
      by_cases hv : v = Memory.unlisted
      · rw [if_pos hv]
        by_cases hx : x = a
        · subst hx
          rw [if_pos rfl, hv]
          have hne : x ≠ k := by omega
          simp only [Memory.read, if_neg hne]
          exact Memory.read_below hrest (by omega)
        · rw [if_neg hx]
      · rw [if_neg hv]; rfl
    · rw [if_neg hak]
      by_cases hk : a = k
      · subst hk
        rw [if_pos rfl]
        by_cases hv : v = Memory.unlisted
        · rw [if_pos hv]
          by_cases hx : x = a
          · subst hx; rw [if_pos rfl, hv]; exact Memory.read_below hrest (by omega)
          · simp [Memory.read, hx]
        · rw [if_neg hv]
          by_cases hx : x = a <;> simp [Memory.read, hx]
      · rw [if_neg hk]
        by_cases hx : x = k
        · have hne : x ≠ a := by omega
          simp only [Memory.read, if_pos hx, if_neg hne]
        · simp only [Memory.read, if_neg hx]
          exact ih hrest

/-- Reading one byte after writing one byte. -/
theorem Memory.read_write {m : Memory} (hm : Memory.wf m = true) (a : Nat) (v : Byte) (x : Nat) :
    Memory.read (Memory.write m a v) x = if x = a then v else Memory.read m x :=
  Memory.read_writeAbove v hm x

/-- A one-byte write below the bound keeps the bound. -/
theorem Memory.within_write {n a : Nat} {m : Memory} (hm : Memory.within n m = true) (h : a < n) (v : Byte) :
    Memory.within n (Memory.write m a v) = true := by
  induction m with
  | nil => by_cases hv : v = Memory.unlisted <;> simp [Memory.write, hv, Memory.within, h]
  | cons c m ih =>
    obtain ⟨k, b⟩ := c
    simp only [Memory.within, List.all_cons, Bool.and_eq_true, decide_eq_true_eq] at hm ih
    unfold Memory.write
    split
    · split <;> simp [Memory.within, List.all_cons, hm.1, h] <;> simpa using hm.2
    · split
      · split <;> simp [Memory.within, List.all_cons, h] <;> simpa using hm.2
      · simp only [Memory.within, List.all_cons, Bool.and_eq_true, decide_eq_true_eq]
        exact ⟨hm.1, ih hm.2⟩

/-! ## Several bytes -/

theorem Memory.wf_writeNat {m : Memory} (hm : Memory.wf m = true) (a n v : Nat) :
    Memory.wf (Memory.writeNat m a n v) = true := by
  induction n generalizing m a v with
  | zero => exact hm
  | succ n ih => exact ih (Memory.wf_write hm _ _) _ _

theorem Memory.within_writeNat {b : Nat} {m : Memory} (hm : Memory.within b m = true) (a n v : Nat) (h : a + n ≤ b) :
    Memory.within b (Memory.writeNat m a n v) = true := by
  induction n generalizing m a v with
  | zero => exact hm
  | succ n ih => exact ih (Memory.within_write hm (by omega) _) _ _ (by omega)

/-- A byte outside the `n` bytes written reads as before. -/
theorem Memory.read_writeNat_other {m : Memory} (hm : Memory.wf m = true) (a n v x : Nat) (h : x < a ∨ a + n ≤ x) :
    Memory.read (Memory.writeNat m a n v) x = Memory.read m x := by
  induction n generalizing m a v with
  | zero => rfl
  | succ n ih =>
    have hx : x ≠ a := by omega
    rw [Memory.writeNat, ih (Memory.wf_write hm _ _) _ _ (by omega), Memory.read_write hm, if_neg hx]

theorem Memory.readNat_congr {m m' : Memory} (a n : Nat)
    (h : ∀ x, a ≤ x → x < a + n → Memory.read m x = Memory.read m' x) :
    Memory.readNat m a n = Memory.readNat m' a n := by
  induction n generalizing a with
  | zero => rfl
  | succ n ih =>
    rw [Memory.readNat, Memory.readNat, h a (by omega) (by omega), ih (a + 1) fun x h1 h2 => h x (by omega) (by omega)]

/-- The `n` bytes written read back as the low `8n` bits of the value. -/
theorem Memory.readNat_writeNat {m : Memory} (hm : Memory.wf m = true) (a n v : Nat) :
    Memory.readNat (Memory.writeNat m a n v) a n = v % 256 ^ n := by
  induction n generalizing m a v with
  | zero => simp [Memory.readNat, Nat.mod_one]
  | succ n ih =>
    have hw := Memory.wf_write hm a (BitVec.ofNat 8 v)
    have hp : v % 256 ^ (n + 1) = v % 256 + 256 * (v / 256 % 256 ^ n) := by
      rw [Nat.pow_succ, Nat.mul_comm (256 ^ n) 256, Nat.mod_mul]
    rw [Memory.readNat, Memory.writeNat, ih hw, Memory.read_writeNat_other hw _ _ _ _ (by omega),
      Memory.read_write hm, if_pos rfl, BitVec.toNat_ofNat, hp]

/-- Reading `n` bytes depends on those bytes alone. -/
theorem Memory.memRead_congr {m m' : Memory} (a n : Nat)
    (h : ∀ x, a ≤ x → x < a + n → Memory.read m x = Memory.read m' x) :
    Memory.memRead m a n = Memory.memRead m' a n := by
  rw [Memory.memRead, Memory.memRead, Memory.readNat_congr a n h]

/-- Reading back what `MemWrite` stored. -/
theorem Memory.memRead_memWrite {m : Memory} (hm : Memory.wf m = true) (a n : Nat) (v : BitVec (8 * n)) :
    Memory.memRead (Memory.memWrite m a n v) a n = v := by
  have hp : (256 : Nat) ^ n = 2 ^ (8 * n) := by rw [Nat.pow_mul]
  rw [Memory.memRead, Memory.memWrite, Memory.readNat_writeNat hm, hp, Nat.mod_eq_of_lt v.isLt, BitVec.ofNat_toNat,
    BitVec.setWidth_eq]

/-! ## Elements and bits -/

theorem wf_writeElem {m : Memory} (hm : Memory.wf m = true) (b : Nat) (r : VReg) (i w : Nat) (v : BitVec (8 * w)) :
    Memory.wf (writeElem b m r i w v) = true :=
  Memory.wf_writeNat hm _ _ _

theorem within_writeElem {n : Nat} {m : Memory} (hm : Memory.within n m = true) (b : Nat) (r : VReg) (i w : Nat)
    (v : BitVec (8 * w)) (h : elemAddr b r i w + w ≤ n) : Memory.within n (writeElem b m r i w v) = true :=
  Memory.within_writeNat hm _ _ _ h

/-- An element reads back as written. -/
theorem readElem_writeElem {m : Memory} (hm : Memory.wf m = true) (b : Nat) (r : VReg) (i w : Nat) (v : BitVec (8 * w)) :
    readElem b (writeElem b m r i w v) r i w = v :=
  Memory.memRead_memWrite hm _ _ _

/-- A byte outside the element reads as before. -/
theorem read_writeElem_other {m : Memory} (hm : Memory.wf m = true) (b : Nat) (r : VReg) (i w : Nat) (v : BitVec (8 * w))
    (x : Nat) (h : ¬ InElem b r w i x) : Memory.read (writeElem b m r i w v) x = Memory.read m x :=
  Memory.read_writeNat_other hm _ _ _ _ (by unfold InElem at h; omega)

/-- An element depends on its own bytes alone. -/
theorem readElem_congr {m m' : Memory} (b : Nat) (r : VReg) (i w : Nat)
    (h : ∀ x, InElem b r w i x → Memory.read m x = Memory.read m' x) : readElem b m r i w = readElem b m' r i w :=
  Memory.memRead_congr _ _ fun x h1 h2 => h x ⟨h1, h2⟩

theorem wf_writeBit {m : Memory} (hm : Memory.wf m = true) (b : Nat) (r : VReg) (i : Nat) (v : Bool) :
    Memory.wf (writeBit b m r i v) = true :=
  Memory.wf_write hm _ _

theorem within_writeBit {n : Nat} {m : Memory} (hm : Memory.within n m = true) (b : Nat) (r : VReg) (i : Nat) (v : Bool)
    (h : bitAddr b r i < n) : Memory.within n (writeBit b m r i v) = true :=
  Memory.within_write hm h _

/-- The bits of a byte after one of them is replaced (R46). -/
theorem getLsbD_setBit (y : Byte) (k : Nat) (v : Bool) (hk : k < 8) (j : Nat) :
    (setBit y k v).getLsbD j = if j = k then v else y.getLsbD j := by
  by_cases hj : j < 8
  · have hp : (BitVec.ofNat 8 (2 ^ k)).getLsbD j = decide (j = k) := by
      interval_cases k <;> interval_cases j <;> rfl
    cases v <;> simp only [setBit, if_true, Bool.false_eq_true, if_false, BitVec.getLsbD_or, BitVec.getLsbD_and,
      BitVec.getLsbD_not, hp, hj, decide_true, Bool.true_and] <;> by_cases h : j = k <;> simp [h]
  · have h1 : j ≠ k := by omega
    rw [if_neg h1, BitVec.getLsbD_of_ge _ _ (by omega), BitVec.getLsbD_of_ge _ _ (by omega)]

/-- A byte other than the one that holds the bit reads as before. -/
theorem read_writeBit_other {m : Memory} (hm : Memory.wf m = true) (b : Nat) (r : VReg) (i : Nat) (v : Bool) (x : Nat)
    (h : x ≠ bitAddr b r i) : Memory.read (writeBit b m r i v) x = Memory.read m x := by
  rw [writeBit, Memory.read_write hm, if_neg h]

/-- Reading a bit of a register after writing one of its bits (R46). -/
theorem readBit_writeBit {m : Memory} (hm : Memory.wf m = true) (b : Nat) (r : VReg) (i : Nat) (v : Bool) (j : Nat) :
    readBit b (writeBit b m r i v) r j = if j = i then v else readBit b m r j := by
  unfold readBit writeBit
  rw [Memory.read_write hm]
  by_cases ha : bitAddr b r j = bitAddr b r i
  · rw [if_pos ha, getLsbD_setBit _ _ _ (Nat.mod_lt _ (by decide)), ha]
    unfold bitAddr at ha
    by_cases hji : j = i
    · simp [hji]
    · have : j % 8 ≠ i % 8 := by omega
      simp [this, hji]
  · have hji : j ≠ i := fun h => ha (by rw [h])
    rw [if_neg ha, if_neg hji]

/-! ## The host's accesses and the free bytes -/

theorem Memory.wf_writeBytes {m : Memory} (hm : Memory.wf m = true) (a : Nat) (bs : List Byte) :
    Memory.wf (Memory.writeBytes m a bs) = true := by
  induction bs generalizing m a with
  | nil => exact hm
  | cons c bs ih => exact ih (Memory.wf_write hm _ _) _

theorem Memory.within_writeBytes {n : Nat} {m : Memory} (hm : Memory.within n m = true) (a : Nat) (bs : List Byte)
    (h : a + bs.length ≤ n) : Memory.within n (Memory.writeBytes m a bs) = true := by
  induction bs generalizing m a with
  | nil => exact hm
  | cons c bs ih =>
    simp only [List.length_cons] at h
    exact ih (Memory.within_write hm (by omega) _) _ (by omega)

theorem wf_scramble {m : Memory} (hm : Memory.wf m = true) (k a n : Nat) : Memory.wf (scramble k a n m) = true := by
  unfold scramble
  induction n generalizing m a with
  | zero => exact hm
  | succ n ih => exact ih (Memory.wf_write hm _ _) _

end Sys2Proof.Machine
end

