-- ==== Sys2Proof/Laws/Loop.lean ====
section
/-! SUPPORT. What the two loops do: if no iteration changes what a later one reads, the loop writes the values computed from
the register file as it was before the loop, and nothing else (R56, R109, R112). -/

namespace Sys2Proof.Machine

/-- The last iteration of a loop, taken off its end. -/
theorem forRange_succ {α : Type} (body : Nat → α → α) (lo n : Nat) (x : α) :
    forRange body lo (n + 1) x = body (lo + n) (forRange body lo n x) := by
  induction n generalizing lo x with
  | zero => rfl
  | succ n ih =>
    rw [show lo + (n + 1) = lo + 1 + n from by omega]
    exact ih (lo + 1) (body lo x)

/-- Two elements of one width at one base share no byte. -/
theorem inElem_unique {b : Nat} {r : VReg} {w i j x : Nat} (hi : InElem b r w i x) (hj : InElem b r w j x) : i = j := by
  unfold InElem elemAddr at hi hj
  rcases Nat.lt_trichotomy i j with h | h | h
  · have := Nat.mul_le_mul_right w (show i + 1 ≤ j from h); rw [Nat.add_mul] at this; omega
  · exact h
  · have := Nat.mul_le_mul_right w (show j + 1 ≤ i from h); rw [Nat.add_mul] at this; omega

/-- The memory agrees with `m` outside the elements `lo` to `i - 1` at `vd`. -/
abbrev AgreesBelow (b : Nat) (vd : VReg) (wd lo i : Nat) (m m' : Memory) : Prop :=
  ∀ x, (∀ j, lo ≤ j → j < i → ¬ InElem b vd wd j x) → Memory.read m' x = Memory.read m x

/-- What an element loop has done after `n` iterations. -/
structure ElemLoopDone (b : Nat) (vd : VReg) (wd lo n : Nat) (gate : Nat → Bool) (val : Nat → BitVec (8 * wd) × Bool)
    (m : Memory) (out : Memory × Bool) : Prop where
  wf : Memory.wf out.1 = true
  written : ∀ i, lo ≤ i → i < lo + n → gate i = true → readElem b out.1 vd i wd = (val i).1
  frame : ∀ x, (∀ i, lo ≤ i → i < lo + n → gate i = true → ¬ InElem b vd wd i x) → Memory.read out.1 x = Memory.read m x
  flag : out.2 = true ↔ ∃ i, lo ≤ i ∧ i < lo + n ∧ gate i = true ∧ (val i).2 = true

/-- The element loop writes the values computed from the register file before it, where no iteration reads what an earlier
one may have written. -/
theorem elemSteps_done {b : Nat} {vd : VReg} {wd lo : Nat} {gate : Memory → Nat → Bool}
    {val : Memory → Nat → BitVec (8 * wd) × Bool} {m : Memory} (hm : Memory.wf m = true) (n : Nat)
    (hind : ∀ i, lo ≤ i → i < lo + n → ∀ m', AgreesBelow b vd wd lo i m m' → gate m' i = gate m i ∧ val m' i = val m i) :
    ElemLoopDone b vd wd lo n (gate m) (val m) m (forRange (elemStep b vd wd gate val) lo n (m, false)) := by
  induction n with
  | zero =>
    refine ⟨hm, fun i h1 h2 => by omega, fun x _ => rfl, ?_⟩
    constructor
    · intro h; exact absurd h (by simp [forRange])
    · rintro ⟨i, h1, h2, _⟩; omega
  | succ n ih =>
    have ih := ih fun i h1 h2 => hind i h1 (by omega)
    rw [forRange_succ]
    generalize forRange (elemStep b vd wd gate val) lo n (m, false) = out at ih
    obtain ⟨hg, hv⟩ := hind (lo + n) (by omega) (by omega) out.1 fun x hx =>
      ih.frame x fun i h1 h2 _ => hx i h1 h2
    unfold elemStep
    rw [hg, hv]
    by_cases hgate : gate m (lo + n) = true
    · rw [if_pos hgate]
      refine ⟨wf_writeElem ih.wf _ _ _ _ _, ?_, ?_, ?_⟩
      · intro i h1 h2 hgi
        by_cases hi : i = lo + n
        · subst hi; exact readElem_writeElem ih.wf _ _ _ _ _
        · rw [← ih.written i h1 (by omega) hgi]
          exact readElem_congr _ _ _ _ fun x hx =>
            read_writeElem_other ih.wf _ _ _ _ _ _ fun h => hi (inElem_unique hx h)
      · intro x hx
        rw [read_writeElem_other ih.wf _ _ _ _ _ _ (hx (lo + n) (by omega) (by omega) hgate)]
        exact ih.frame x fun i h1 h2 => hx i h1 (by omega)
      · simp only [Bool.or_eq_true, ih.flag]
        constructor
        · rintro (⟨i, h1, h2, h3, h4⟩ | h)
          · exact ⟨i, h1, by omega, h3, h4⟩
          · exact ⟨lo + n, by omega, by omega, hgate, h⟩
        · rintro ⟨i, h1, h2, h3, h4⟩
          by_cases hi : i = lo + n
          · subst hi; exact Or.inr h4
          · exact Or.inl ⟨i, h1, by omega, h3, h4⟩
    · rw [if_neg hgate]
      refine ⟨ih.wf, ?_, ?_, ?_⟩
      · intro i h1 h2 hgi
        by_cases hi : i = lo + n
        · subst hi; exact absurd hgi hgate
        · exact ih.written i h1 (by omega) hgi
      · exact fun x hx => ih.frame x fun i h1 h2 => hx i h1 (by omega)
      · rw [ih.flag]
        constructor
        · rintro ⟨i, h1, h2, h3, h4⟩; exact ⟨i, h1, by omega, h3, h4⟩
        · rintro ⟨i, h1, h2, h3, h4⟩
          by_cases hi : i = lo + n
          · subst hi; exact absurd h3 hgate
          · exact ⟨i, h1, by omega, h3, h4⟩

/-- The element loop keeps the canonical form, whatever its iterations read. -/
theorem wf_elemSteps {b : Nat} {vd : VReg} {wd : Nat} {gate : Memory → Nat → Bool}
    {val : Memory → Nat → BitVec (8 * wd) × Bool} (lo n : Nat) (x : Memory × Bool) (hm : Memory.wf x.1 = true) :
    Memory.wf (forRange (elemStep b vd wd gate val) lo n x).1 = true := by
  induction n with
  | zero => exact hm
  | succ n ih =>
    rw [forRange_succ, elemStep]
    split
    · exact wf_writeElem ih _ _ _ _ _
    · exact ih

/-- The element loop keeps the bound, where its elements lie below it. -/
theorem within_elemSteps {b bound : Nat} {vd : VReg} {wd : Nat} {gate : Memory → Nat → Bool}
    {val : Memory → Nat → BitVec (8 * wd) × Bool} (lo n : Nat) (x : Memory × Bool)
    (hm : Memory.within bound x.1 = true) (h : ∀ i, lo ≤ i → i < lo + n → elemAddr b vd i wd + wd ≤ bound) :
    Memory.within bound (forRange (elemStep b vd wd gate val) lo n x).1 = true := by
  induction n with
  | zero => exact hm
  | succ n ih =>
    rw [forRange_succ, elemStep]
    have ih := ih fun i h1 h2 => h i h1 (by omega)
    split
    · exact within_writeElem ih _ _ _ _ _ (h _ (by omega) (by omega))
    · exact ih

/-- The memory agrees with `m` outside the bits `lo` to `i - 1` of register `vd`. -/
abbrev BitsAgreeBelow (b : Nat) (vd : VReg) (lo i : Nat) (m m' : Memory) : Prop :=
  ∀ x k, k < 8 → (∀ j, lo ≤ j → j < i → ¬ (x = bitAddr b vd j ∧ k = j % 8)) →
    (Memory.read m' x).getLsbD k = (Memory.read m x).getLsbD k

/-- What a mask loop has done after `n` iterations. -/
structure BitLoopDone (b : Nat) (vd : VReg) (lo n : Nat) (gate bit : Nat → Bool) (m out : Memory) : Prop where
  wf : Memory.wf out = true
  written : ∀ i, lo ≤ i → i < lo + n → gate i = true → readBit b out vd i = bit i
  frame : ∀ x k, k < 8 → (∀ i, lo ≤ i → i < lo + n → gate i = true → ¬ (x = bitAddr b vd i ∧ k = i % 8)) →
    (Memory.read out x).getLsbD k = (Memory.read m x).getLsbD k

/-- A bit of any byte after one mask bit is written (R46). -/
theorem getLsbD_read_writeBit {m : Memory} (hm : Memory.wf m = true) (b : Nat) (r : VReg) (i : Nat) (v : Bool) (x k : Nat) :
    (Memory.read (writeBit b m r i v) x).getLsbD k =
      if x = bitAddr b r i ∧ k = i % 8 then v else (Memory.read m x).getLsbD k := by
  by_cases hx : x = bitAddr b r i
  · subst hx
    rw [writeBit, Memory.read_write hm, if_pos rfl, getLsbD_setBit _ _ _ (Nat.mod_lt _ (by decide))]
    simp
  · rw [read_writeBit_other hm _ _ _ _ _ hx, if_neg fun h => hx h.1]

/-- The mask loop writes the bits computed from the register file before it, where no iteration reads what an earlier one
may have written. -/
theorem bitSteps_done {b : Nat} {vd : VReg} {lo : Nat} {gate bit : Memory → Nat → Bool} {m : Memory}
    (hm : Memory.wf m = true) (n : Nat)
    (hind : ∀ i, lo ≤ i → i < lo + n → ∀ m', BitsAgreeBelow b vd lo i m m' → gate m' i = gate m i ∧ bit m' i = bit m i) :
    BitLoopDone b vd lo n (gate m) (bit m) m (forRange (bitStep b vd gate bit) lo n m) := by
  induction n with
  | zero => exact ⟨hm, fun i h1 h2 => by omega, fun x k _ _ => rfl⟩
  | succ n ih =>
    have ih := ih fun i h1 h2 => hind i h1 (by omega)
    rw [forRange_succ]
    generalize forRange (bitStep b vd gate bit) lo n m = out at ih
    obtain ⟨hg, hv⟩ := hind (lo + n) (by omega) (by omega) out fun x k hk hx =>
      ih.frame x k hk fun i h1 h2 _ => hx i h1 h2
    unfold bitStep
    rw [hg, hv]
    by_cases hgate : gate m (lo + n) = true
    · rw [if_pos hgate]
      refine ⟨wf_writeBit ih.wf _ _ _ _, ?_, ?_⟩
      · intro i h1 h2 hgi
        rw [readBit_writeBit ih.wf]
        by_cases hi : i = lo + n
        · rw [if_pos hi, hi]
        · rw [if_neg hi, ih.written i h1 (by omega) hgi]
      · intro x k hk hx
        rw [getLsbD_read_writeBit ih.wf, if_neg (hx (lo + n) (by omega) (by omega) hgate)]
        exact ih.frame x k hk fun i h1 h2 => hx i h1 (by omega)
    · rw [if_neg hgate]
      refine ⟨ih.wf, ?_, fun x k hk hx => ih.frame x k hk fun i h1 h2 => hx i h1 (by omega)⟩
      intro i h1 h2 hgi
      by_cases hi : i = lo + n
      · subst hi; exact absurd hgi hgate
      · exact ih.written i h1 (by omega) hgi

/-- The mask loop keeps the canonical form, whatever its iterations read. -/
theorem wf_bitSteps {b : Nat} {vd : VReg} {gate bit : Memory → Nat → Bool} (lo n : Nat) (m : Memory)
    (hm : Memory.wf m = true) : Memory.wf (forRange (bitStep b vd gate bit) lo n m) = true := by
  induction n with
  | zero => exact hm
  | succ n ih =>
    rw [forRange_succ, bitStep]
    split
    · exact wf_writeBit ih _ _ _ _
    · exact ih

/-- The mask loop keeps the bound, where its bits lie below it. -/
theorem within_bitSteps {b bound : Nat} {vd : VReg} {gate bit : Memory → Nat → Bool} (lo n : Nat) (m : Memory)
    (hm : Memory.within bound m = true) (h : ∀ i, lo ≤ i → i < lo + n → bitAddr b vd i < bound) :
    Memory.within bound (forRange (bitStep b vd gate bit) lo n m) = true := by
  induction n with
  | zero => exact hm
  | succ n ih =>
    rw [forRange_succ, bitStep]
    have ih := ih fun i h1 h2 => h i h1 (by omega)
    split
    · exact within_writeBit ih _ _ _ _ (h _ (by omega) (by omega))
    · exact ih

/-- The free bytes of an abandoned request stay below the bound. -/
theorem within_scramble {bound : Nat} {m : Memory} (k a n : Nat) (hm : Memory.within bound m = true) (h : a + n ≤ bound) :
    Memory.within bound (scramble k a n m) = true := by
  unfold scramble
  induction n with
  | zero => exact hm
  | succ n ih => rw [forRange_succ]; exact Memory.within_write (ih (by omega)) (by omega) _

/-- The free bytes of an abandoned request: every byte of the range holds one, every other byte is as before. -/
theorem read_scramble {m : Memory} (k a n : Nat) (hm : Memory.wf m = true) (x : Nat) :
    Memory.read (scramble k a n m) x =
      if a ≤ x ∧ x < a + n then Config.abandonedByte k x else Memory.read m x := by
  induction n with
  | zero => rw [if_neg (by omega)]; rfl
  | succ n ih =>
    have hw : Memory.wf (scramble k a n m) = true := wf_scramble hm k a n
    unfold scramble at ih hw ⊢
    rw [forRange_succ, Memory.read_write hw, ih]
    by_cases hx : x = a + n
    · rw [if_pos hx, if_pos (by omega), hx]
    · rw [if_neg hx]
      by_cases h : a ≤ x ∧ x < a + n
      · rw [if_pos h, if_pos (by omega)]
      · rw [if_neg h, if_neg (by omega)]

end Sys2Proof.Machine
end

