-- ==== Sys2Proof/Laws/Groups.lean ====
section
/-! SUPPORT. Where the elements of a group lie, and which of them an earlier write of the same request cannot reach (R44,
R49 to R56, R113, R337 to R340). -/

namespace Sys2Proof.Machine

theorem Params.vlenb_ge (p : Params) : 8 ≤ p.vlenb := by
  have := Nat.one_le_two_pow (n := p.vlenExp)
  unfold Params.vlenb; omega

theorem sewb_pos (s : Sew) : 0 < sewb s := by cases s <;> decide

/-- Element `i`, `w` bytes wide, lies within the first `EMUL * VLENB` bytes of its group (R49, R51). -/
abbrev Fits (b : Nat) (m : Mult) (w i : Nat) : Prop := 0 < m.den ∧ (i + 1) * w * m.den ≤ b * m.num

/-- What an admitted configuration has for `LMUL` (R47). -/
theorem lmul_admitted {k : VClass} {c : Cfg} (h : cfgError k c = none) : lmul c ∈ admittedPairs := by
  unfold cfgError at h
  by_cases hm : lmul c ∈ admittedPairs
  · exact hm
  · simp [hm] at h

theorem den_pos {m : Mult} (h : m ∈ admittedPairs) : 0 < m.den := by
  revert h; unfold admittedPairs; intro h
  simp only [List.mem_cons, List.not_mem_nil, or_false] at h
  rcases h with h | h | h | h | h | h | h <;> subst h <;> decide

/-- An element below `VLMAX` fits its own-width group (R101, R113). -/
theorem fits_own {k : VClass} {c : Cfg} {p : Params} {i : Nat} (h : cfgError k c = none) (hi : i < vlmax p c) :
    Fits p.vlenb (lmul c) (sewb c.sew) i := by
  have hd := den_pos (lmul_admitted h)
  refine ⟨hd, ?_⟩
  have h1 : (i + 1) * (sewBits c.sew * (lmul c).den) ≤ p.vlen * (lmul c).num := by
    have h2 : 0 < sewBits c.sew * (lmul c).den := Nat.mul_pos (by have := sewb_pos c.sew; unfold sewBits; omega) hd
    exact (Nat.le_div_iff_mul_le h2).mp hi
  have h3 : (i + 1) * (sewBits c.sew * (lmul c).den) = 8 * ((i + 1) * sewb c.sew * (lmul c).den) := by
    unfold sewBits; ring
  have h4 : p.vlen * (lmul c).num = 8 * (p.vlenb * (lmul c).num) := by unfold Params.vlen; ring
  omega

/-- An element of the double-width operand fits its group (R48). -/
theorem fits_wide {b : Nat} {m : Mult} {w i : Nat} (h : Fits b m w i) : Fits b (m.times 2) (2 * w) i := by
  refine ⟨h.1, ?_⟩
  have := h.2
  show (i + 1) * (2 * w) * m.den ≤ b * (2 * m.num)
  nlinarith

/-- An element of an extension source fits its group (R48). -/
theorem fits_frac {b : Nat} {m : Mult} {w i f : Nat} (hf : 0 < f) (h : Fits b m w i) : Fits b (m.over f) (w / f) i := by
  refine ⟨Nat.mul_pos h.1 hf, ?_⟩
  show (i + 1) * (w / f) * (m.den * f) ≤ b * m.num
  have h1 : w / f * f ≤ w := Nat.div_mul_le_self w f
  calc (i + 1) * (w / f) * (m.den * f) = (w / f * f) * ((i + 1) * m.den) := by ring
    _ ≤ w * ((i + 1) * m.den) := Nat.mul_le_mul_right _ h1
    _ = (i + 1) * w * m.den := by ring
    _ ≤ b * m.num := h.2

theorem num_le_nreg {m : Mult} (hd : 0 < m.den) : m.num ≤ m.nreg * m.den := by
  have h1 : m.num ≤ m.ceil * m.den := by
    unfold Mult.ceil
    have := Nat.div_add_mod (m.num + m.den - 1) m.den
    have := Nat.mod_lt (m.num + m.den - 1) hd
    rw [Nat.mul_comm]; omega
  exact Nat.le_trans h1 (Nat.mul_le_mul_right _ (by unfold Mult.nreg; omega))

theorem fits_bytes {b : Nat} {m : Mult} {w i : Nat} (h : Fits b m w i) : (i + 1) * w ≤ m.nreg * b := by
  have h1 : (i + 1) * w * m.den ≤ m.nreg * b * m.den := by
    have := Nat.mul_le_mul_left b (num_le_nreg h.1)
    have := h.2
    nlinarith
  exact Nat.le_of_mul_le_mul_right h1 h.1

/-- An element that fits lies inside its group's registers (R49, R51). -/
theorem inElem_group {b : Nat} {r : VReg} {m : Mult} {w i x : Nat} (h : Fits b m w i) (hx : InElem b r w i x) :
    r.val * b ≤ x ∧ x < (r.val + m.nreg) * b := by
  have h1 := fits_bytes h
  unfold InElem elemAddr at hx
  rw [Nat.add_mul] at h1 ⊢
  omega

theorem elem_in_group {b : Nat} {r : VReg} {m : Mult} {w i : Nat} (h : Fits b m w i) :
    elemAddr b r i w + w ≤ (r.val + m.nreg) * b := by
  have h1 := fits_bytes h
  unfold elemAddr
  rw [Nat.add_mul] at h1 ⊢
  omega

theorem ceil_le_one {m : Mult} (h : m.fractional = true) : m.ceil ≤ 1 := by
  unfold Mult.fractional at h
  have h := of_decide_eq_true h
  unfold Mult.ceil
  exact Nat.le_of_lt_succ (Nat.div_lt_of_lt_mul (by omega))

/-- Aligned groups of one multiplicity are identical or disjoint (R52). -/
theorem aligned_disjoint {r r' : VReg} {m : Mult} (h : aligned r m = true) (h' : aligned r' m = true) (hne : r ≠ r') :
    disjointGroups r m r' m = true := by
  have hv : r.val ≠ r'.val := fun e => hne (Fin.ext e)
  unfold disjointGroups
  simp only [Bool.or_eq_true, decide_eq_true_eq]
  cases hf : m.fractional with
  | true => have := ceil_le_one hf; unfold Mult.nreg; omega
  | false =>
    simp only [aligned, hf, Bool.false_or, decide_eq_true_eq] at h h'
    rcases Nat.eq_zero_or_pos m.ceil with hc | hc
    · unfold Mult.nreg; omega
    · have e1 := Nat.div_add_mod r.val m.ceil
      have e2 := Nat.div_add_mod r'.val m.ceil
      rw [h] at e1; rw [h'] at e2
      have hn : m.nreg = m.ceil := by unfold Mult.nreg; omega
      rw [hn]
      rcases Nat.lt_trichotomy (r.val / m.ceil) (r'.val / m.ceil) with hlt | heq | hlt
      · have := Nat.mul_le_mul_left m.ceil (show r.val / m.ceil + 1 ≤ r'.val / m.ceil from hlt)
        rw [Nat.mul_add] at this; omega
      · rw [heq] at e1; omega
      · have := Nat.mul_le_mul_left m.ceil (show r'.val / m.ceil + 1 ≤ r.val / m.ceil from hlt)
        rw [Nat.mul_add] at this; omega

/-! ## What an earlier element write cannot reach -/

/-- No byte of element `k` of the group at `vs` lies in an element below `i` of the group at `vd`. -/
abbrev Apart (b : Nat) (vs : VReg) (ws k : Nat) (vd : VReg) (wd i : Nat) : Prop :=
  ∀ j, j < i → ∀ x, InElem b vs ws k x → ¬ InElem b vd wd j x

theorem apart_self {b : Nat} {r : VReg} {w k i : Nat} (h : i ≤ k) : Apart b r w k r w i := by
  intro j hj x hx hx'
  have := inElem_unique hx hx'
  omega

theorem apart_disjoint {b : Nat} {vs vd : VReg} {ms md : Mult} {ws wd k i : Nat}
    (h : disjointGroups vd md vs ms = true) (hk : Fits b ms ws k) (hi : ∀ j, j < i → Fits b md wd j) :
    Apart b vs ws k vd wd i := by
  intro j hj x hx hx'
  have h1 := inElem_group hk hx
  have h2 := inElem_group (hi j hj) hx'
  unfold disjointGroups at h
  simp only [Bool.or_eq_true, decide_eq_true_eq] at h
  rcases h with h | h
  · have := Nat.mul_le_mul_right b h; omega
  · have := Nat.mul_le_mul_right b h; omega

/-- Same-width operands, both aligned: element `k` of the source is out of reach of the earlier writes, `k` at or above the
element being written (R117, R340). -/
theorem apart_own {b : Nat} {vs vd : VReg} {m : Mult} {w k i : Nat} (hs : aligned vs m = true) (hd : aligned vd m = true)
    (hki : i ≤ k) (hk : Fits b m w k) (hi : ∀ j, j < i → Fits b m w j) : Apart b vs w k vd w i := by
  by_cases h : vd = vs
  · subst h; exact apart_self hki
  · exact apart_disjoint (aligned_disjoint hd hs h) hk hi

/-- The narrowing overlap at the destination's own register (R56). -/
theorem apart_narrow {b : Nat} {vs vd : VReg} {ms md : Mult} {w i : Nat} (h : narrowOk vd vs md ms = true)
    (hk : Fits b ms (2 * w) i) (hi : ∀ j, j < i → Fits b md w j) : Apart b vs (2 * w) i vd w i := by
  unfold narrowOk at h
  simp only [Bool.or_eq_true, decide_eq_true_eq] at h
  rcases h with h | h
  · exact apart_disjoint h hk hi
  · subst h
    intro j hj x hx hx'
    unfold InElem elemAddr at hx hx'
    have := Nat.mul_le_mul_right w (show j + 1 ≤ i from hj)
    have e : i * (2 * w) = i * w + i * w := by ring
    rw [Nat.add_mul] at this
    omega

/-- The extension and widening overlap in the upper part of the destination group (R56), `f` the ratio of the widths. -/
theorem apart_widen {b : Nat} {vs vd : VReg} {ms md : Mult} {ws wd f i : Nat} (h : widenOk vd vs ms md = true)
    (hf : 0 < f) (hw : wd = f * ws) (hnum : ms.fractional = false → md.nreg = f * ms.nreg)
    (hk : Fits b ms ws i) (hi : ∀ j, j < i → Fits b md wd j) : Apart b vs ws i vd wd i := by
  unfold widenOk at h
  simp only [Bool.or_eq_true, Bool.and_eq_true, Bool.not_eq_true', decide_eq_true_eq] at h
  rcases h with h | ⟨hfr, hreg⟩
  · exact apart_disjoint h hk hi
  · intro j hj x hx hx'
    have hn := hnum hfr
    have hb := fits_bytes hk
    unfold InElem elemAddr at hx hx'
    obtain ⟨g, rfl⟩ : ∃ g, f = g + 1 := ⟨f - 1, by omega⟩
    -- the source group starts `g * nreg` registers above `vd`
    have hv : vs.val = vd.val + g * ms.nreg := by rw [hn, Nat.add_mul] at hreg; omega
    have h1 : (j + 1) * wd ≤ i * wd := Nat.mul_le_mul_right wd hj
    have h2 : i * wd = g * (i * ws) + i * ws := by rw [hw]; ring
    have h3 : g * (i * ws) ≤ g * (ms.nreg * b) :=
      Nat.mul_le_mul_left g (Nat.le_trans (Nat.mul_le_mul_right ws (by omega)) hb)
    have h4 : vs.val * b = vd.val * b + g * (ms.nreg * b) := by rw [hv]; ring
    rw [Nat.add_mul] at h1
    omega

/-- A read of an element out of reach sees what was there before the request. -/
theorem readElem_apart {b : Nat} {vs vd : VReg} {ws k wd lo i : Nat} {m m' : Memory} (h : Apart b vs ws k vd wd i)
    (ha : AgreesBelow b vd wd lo i m m') : readElem b m' vs k ws = readElem b m vs k ws :=
  readElem_congr _ _ _ _ fun x hx => ha x fun j _ hj => h j hj x hx

/-- A bit of `v0` is out of reach of element writes to a group that does not start at `v0` (R337). -/
theorem readBit_apart {b : Nat} {vd : VReg} {wd lo i k : Nat} {m m' : Memory} (hvd : vd.val ≠ 0) (hk : k < 8 * b)
    (ha : AgreesBelow b vd wd lo i m m') : readBit b m' 0 k = readBit b m 0 k := by
  unfold readBit
  rw [ha (bitAddr b 0 k)]
  intro j _ _ hx
  unfold InElem elemAddr bitAddr at hx
  have h1 : 1 * b ≤ vd.val * b := Nat.mul_le_mul_right b (by omega)
  have h2 : (0 : VReg).val = 0 := rfl
  rw [h2] at hx
  omega

/-- An element index below `VLMAX` has a mask bit in `v0` (R113). -/
theorem fits_bit {k : VClass} {c : Cfg} {b i : Nat} (h : cfgError k c = none) (hi : Fits b (lmul c) (sewb c.sew) i) :
    i < 8 * b := by
  have hp := lmul_admitted h
  have hs := sewb_pos c.sew
  have h1 : (i + 1) * (lmul c).den ≤ b * (lmul c).num := by
    refine Nat.le_trans (Nat.mul_le_mul_right _ ?_) hi.2
    exact Nat.le_mul_of_pos_right _ hs
  generalize lmul c = m at hp h1
  unfold admittedPairs at hp
  simp only [List.mem_cons, List.not_mem_nil, or_false] at hp
  rcases hp with h | h | h | h | h | h | h <;> subst h <;> simp only at h1 <;> omega

/-! ## What an earlier bit write cannot reach -/

/-- Element `i` of a source group that holds `vd` at its base register or not at all is out of reach of the earlier bit
writes (R339). -/
theorem readElem_bits {b : Nat} {vs vd : VReg} {ms : Mult} {w lo i : Nat} {m m' : Memory} (hw : 0 < w)
    (hin : insideGroup vd vs ms = false) (hk : Fits b ms w i) (hi : i < 8 * b)
    (ha : BitsAgreeBelow b vd lo i m m') : readElem b m' vs i w = readElem b m vs i w := by
  refine readElem_congr _ _ _ _ fun x hx => ?_
  have hg := inElem_group hk hx
  refine BitVec.eq_of_getLsbD_eq fun k hk8 => ha x k hk8 fun j _ hj hc => ?_
  have hx' := hc.1
  unfold bitAddr at hx'
  unfold InElem elemAddr at hx
  unfold insideGroup at hin
  simp only [Bool.and_eq_false_iff, decide_eq_false_iff_not] at hin
  have hj8 : j / 8 < b := by omega
  rcases hin with hin | hin
  · by_cases he : vd.val = vs.val
    · rw [he] at hx'
      have := Nat.le_mul_of_pos_right i hw
      omega
    · have := Nat.mul_le_mul_right b (show vd.val + 1 ≤ vs.val by omega)
      rw [Nat.add_mul] at this
      omega
  · have := Nat.mul_le_mul_right b (show vs.val + ms.nreg ≤ vd.val by omega)
    omega

/-- Bit `i` of `v0` is out of reach of the writes to earlier bits of any register (R112, R337). -/
theorem readBit_bits {b : Nat} {vd : VReg} {lo i : Nat} {m m' : Memory} (hi : i < 8 * b)
    (ha : BitsAgreeBelow b vd lo i m m') : readBit b m' 0 i = readBit b m 0 i := by
  unfold readBit
  refine ha _ _ (Nat.mod_lt _ (by decide)) fun j _ hj hc => ?_
  unfold bitAddr at hc
  have h2 : (0 : VReg).val = 0 := rfl
  rw [h2] at hc
  by_cases h : vd.val = 0
  · rw [h] at hc; omega
  · have h1 : 1 * b ≤ vd.val * b := Nat.mul_le_mul_right b (by omega)
    omega

end Sys2Proof.Machine
end

