-- ==== Sys2Proof/Laws/Request.lean ====
section
/-! SUPPORT. What a request can do (R314), and what each shared operation of Operands writes: its values computed from the
register file as it was before the request (R56, R109, R112). -/

namespace Sys2Proof.Machine

/-! ## The protocol -/

/-- A request that is carried out. -/
theorem runRequest_runs {p : Plan} {s : State} (h : Runs p s) (body : Memory → Memory × Bool) :
    runRequest p body s = .next (s.succeed (body s.vrf)) := by
  obtain ⟨⟨hc, hv⟩, ho, hh⟩ := h
  unfold runRequest
  simp [hc, Nat.not_lt.mpr hv, ho, hh]

/-- A request that fails validation (R303). -/
theorem runRequest_fails {p : Plan} {s : State} (h : Admitted p s) (hv : validate p ≠ .noExcept)
    (body : Memory → Memory × Bool) : runRequest p body s = .next (s.raise (validate p)) := by
  unfold runRequest
  simp [h.1, Nat.not_lt.mpr h.2, hv]

/-- Everything a request can answer, guards included. -/
theorem runRequest_cases (p : Plan) (body : Memory → Memory × Bool) (s : State) :
    (∃ e, cfgError p.cls p.cfg = some e ∧ runRequest p body s = .refused (.notAdmitted e)) ∨
    (cfgError p.cls p.cfg = none ∧ vlmax s.params p.cfg < s.port.vl ∧ runRequest p body s = .refused .vectorLength) ∨
    (Admitted p s ∧ validate p ≠ .noExcept ∧ runRequest p body s = .next (s.raise (validate p))) ∨
    (∃ h, Admitted p s ∧ validate p = .noExcept ∧ hazard p = some h ∧ runRequest p body s = .refused (.hazardous h)) ∨
    (Runs p s ∧ runRequest p body s = .next (s.succeed (body s.vrf))) := by
  cases hc : cfgError p.cls p.cfg with
  | some e => exact Or.inl ⟨e, rfl, by simp [runRequest, hc]⟩
  | none =>
    by_cases hv : vlmax s.params p.cfg < s.port.vl
    · exact Or.inr (Or.inl ⟨rfl, hv, by simp [runRequest, hc, hv]⟩)
    · have ha : Admitted p s := ⟨hc, Nat.not_lt.mp hv⟩
      by_cases ho : validate p = .noExcept
      · cases hh : hazard p with
        | some h => exact Or.inr (Or.inr (Or.inr (Or.inl ⟨h, ha, ho, rfl, by simp [runRequest, hc, hv, ho, hh]⟩)))
        | none => exact Or.inr (Or.inr (Or.inr (Or.inr ⟨⟨ha, ho, hh⟩, runRequest_runs ⟨ha, ho, hh⟩ body⟩)))
      · exact Or.inr (Or.inr (Or.inl ⟨ha, ho, runRequest_fails ha ho body⟩))

/-- What passing validation says (R103). -/
theorem validate_ok {p : Plan} (h : validate p = .noExcept) :
    vs1Aligned p = true ∧ vs2Aligned p = true ∧ vdAligned p = true ∧ vs1OverlapOk p = true ∧ vs2WidenOk p = true ∧
      vs2NarrowOk p = true := by
  unfold validate at h
  cases h1 : vs1Aligned p <;> cases h2 : vs2Aligned p <;> cases h3 : vdAligned p <;> cases h4 : vs1OverlapOk p <;>
    cases h5 : vs2WidenOk p <;> cases h6 : vs2NarrowOk p <;> simp [h1, h2, h3, h4, h5, h6] at h ⊢

/-- What the absence of a hazard says (R336). -/
theorem hazard_none {p : Plan} (h : hazard p = none) :
    ¬ (p.cls ≠ .maskDst ∧ p.readsV0 = true ∧ p.vd.val = 0) ∧ ¬ (p.slideUp = true ∧ p.vs2 = some p.vd) ∧
      maskInsideSource p = false := by
  unfold hazard at h
  split at h
  · exact absurd h (by simp)
  · split at h
    · exact absurd h (by simp)
    · split at h
      · exact absurd h (by simp)
      · rename_i h1 h2 h3
        exact ⟨h1, h2, by simpa using h3⟩

theorem active_iff (b : Nat) (me : Bool) (m : Memory) (i : Nat) :
    active b me m i = true ↔ me = false ∨ readBit b m 0 i = true := by
  unfold active; cases me <;> simp

/-- A request that writes elements, no iteration of which reads what an earlier one wrote. -/
theorem elemRequest_done {p : Plan} {wd lo : Nat} {gate : Memory → Nat → Bool}
    {val : Memory → Nat → BitVec (8 * wd) × Bool} {s : State} (hs : s.inv) (hr : Runs p s)
    (hind : ∀ i, lo ≤ i → i < s.port.vl → ∀ m', AgreesBelow s.params.vlenb p.vd wd lo i s.vrf m' →
      gate m' i = gate s.vrf i ∧ val m' i = val s.vrf i) :
    ∃ t, elemRequest p wd lo gate val s = .next t ∧
      Succeeds s t (∃ i, lo ≤ i ∧ i < s.port.vl ∧ gate s.vrf i = true ∧ (val s.vrf i).2 = true) ∧
      WroteElems s t p.vd wd (fun i => lo ≤ i ∧ i < s.port.vl ∧ gate s.vrf i = true) (fun i => (val s.vrf i).1) := by
  have hd := elemSteps_done (b := s.params.vlenb) (vd := p.vd) (wd := wd) (lo := lo) (gate := gate) (val := val) hs.1
    (s.port.vl - lo) fun i h1 h2 => hind i h1 (by omega)
  refine ⟨_, runRequest_runs hr _, ⟨rfl, _, rfl, ?_⟩, ?_, ?_⟩
  · refine Iff.trans hd.flag ⟨?_, ?_⟩
    · rintro ⟨i, h1, h2, h3⟩; exact ⟨i, h1, by omega, h3⟩
    · rintro ⟨i, h1, h2, h3⟩; exact ⟨i, h1, by omega, h3⟩
  · rintro i ⟨h1, h2, h3⟩; exact hd.written i h1 (by omega) h3
  · intro x hx; exact hd.frame x fun i h1 h2 h3 => hx i ⟨h1, by omega, h3⟩

/-- A request that writes mask bits, no iteration of which reads what an earlier one wrote. -/
theorem bitRequest_done {p : Plan} {gate bit : Memory → Nat → Bool} {s : State} (hs : s.inv) (hr : Runs p s)
    (hind : ∀ i, s.port.vstart ≤ i → i < s.port.vl → ∀ m',
      BitsAgreeBelow s.params.vlenb p.vd s.port.vstart i s.vrf m' → gate m' i = gate s.vrf i ∧ bit m' i = bit s.vrf i) :
    ∃ t, bitRequest p gate bit s = .next t ∧ Succeeds s t False ∧
      WroteBits s t p.vd (fun i => InLoop s i ∧ gate s.vrf i = true) (bit s.vrf) := by
  have hd := bitSteps_done (b := s.params.vlenb) (vd := p.vd) (lo := s.port.vstart) (gate := gate) (bit := bit) hs.1
    (s.port.vl - s.port.vstart) fun i h1 h2 => hind i h1 (by omega)
  refine ⟨_, runRequest_runs hr _, ⟨rfl, _, rfl, by simp [bitLoop]⟩, ?_, ?_⟩
  · rintro i ⟨⟨h1, h2⟩, h3⟩; exact hd.written i h1 (by omega) h3
  · intro x k hk hx; exact hd.frame x k hk fun i h1 h2 h3 => hx i ⟨⟨h1, by omega⟩, h3⟩

/-! ## Reads that an earlier write of the request cannot change -/

/-- The mask gate is out of reach of element writes, where a masked request's destination is not at `v0` (R337). -/
theorem active_apart {b : Nat} {me : Bool} {vd : VReg} {wd lo i : Nat} {m m' : Memory} (hvd : me = true → vd.val ≠ 0)
    (hk : i < 8 * b) (ha : AgreesBelow b vd wd lo i m m') : active b me m' i = active b me m i := by
  unfold active
  cases me with
  | false => rfl
  | true => rw [readBit_apart (hvd rfl) hk ha]

/-- The right operand is out of reach, where it is not a vector or its register's element is. -/
theorem rhsValue_apart {s : State} {r : Rhs} {vd : VReg} {w wd lo i : Nat} {m m' : Memory}
    (h : ∀ v, r.reg = some v → Apart s.params.vlenb v w i vd wd i) (ha : AgreesBelow s.params.vlenb vd wd lo i m m') :
    rhsValue s m' r i w = rhsValue s m r i w := by
  cases r with
  | vec v => exact readElem_apart (h v rfl) ha
  | scalar => rfl
  | simm _ => rfl
  | uimm _ => rfl

/-- The right operand is out of reach of the earlier bit writes. -/
theorem rhsValue_bits {s : State} {r : Rhs} {vd : VReg} {ms : Mult} {w lo i : Nat} {m m' : Memory} (hw : 0 < w)
    (hin : ∀ v, r.reg = some v → insideGroup vd v ms = false) (hk : Fits s.params.vlenb ms w i)
    (hi : i < 8 * s.params.vlenb) (ha : BitsAgreeBelow s.params.vlenb vd lo i m m') :
    rhsValue s m' r i w = rhsValue s m r i w := by
  cases r with
  | vec v => exact readElem_bits hw (hin v rfl) hk hi ha
  | scalar => rfl
  | simm _ => rfl
  | uimm _ => rfl

/-- The elements of a request's own width all fit, and their indices have mask bits. -/
theorem runs_fits {p : Plan} {s : State} (hr : Runs p s) {i : Nat} (hi : i < s.port.vl) :
    Fits s.params.vlenb (lmul p.cfg) (sewb p.cfg.sew) i ∧ i < 8 * s.params.vlenb := by
  have h := fits_own (p := s.params) hr.1.1 (Nat.lt_of_lt_of_le hi hr.1.2)
  exact ⟨h, fits_bit hr.1.1 h⟩

/-- A masked request that writes elements does not write `v0` (R337). -/
theorem masked_vd_ne {k : VClass} {a : Args} (hk : k ≠ .maskDst) (h : hazard (maskedPlan k a) = none) (hm : a.me = true) :
    a.vd.val ≠ 0 := by
  intro h0
  exact (hazard_none h).1 ⟨hk, hm, h0⟩

/-! ## The shared operations -/

theorem touched_eq (s : State) (me : Bool) :
    (fun i => s.port.vstart ≤ i ∧ i < s.port.vl ∧ active s.params.vlenb me s.vrf i = true) = Touched s me := by
  funext i
  rw [active_iff]
  exact propext ⟨fun h => ⟨⟨h.1, h.2.1⟩, h.2.2⟩, fun h => ⟨h.1.1, h.1.2, h.2⟩⟩

theorem inLoop_eq (s : State) : (fun i => s.port.vstart ≤ i ∧ i < s.port.vl ∧ true = true) = InLoop s := by
  funext i
  exact propext ⟨fun h => ⟨h.1, h.2.1⟩, fun h => ⟨h.1, h.2, rfl⟩⟩

theorem Succeeds.mono {s t : State} {p q : Prop} (h : Succeeds s t p) (hpq : p ↔ q) : Succeeds s t q := by
  rw [← propext hpq]; exact h

theorem Succeeds.no_flag {s t : State} {p : Nat → Prop} {q : Nat → Prop}
    (h : Succeeds s t (∃ i, p i ∧ q i ∧ false = true)) : Succeeds s t False :=
  h.mono ⟨fun ⟨_, _, _, h⟩ => absurd h (by decide), False.elim⟩

end Sys2Proof.Machine
end

