-- ==== Sys2Proof/Laws/Exec.lean ====
section
/-! SUPPORT. Every instruction is one request of its plan, which writes elements or mask bits (R100, R109, R112). -/

namespace Sys2Proof.Machine

/-- The destination width of a request that writes elements, in bytes (R102). -/
abbrev DestWidth (p : Plan) (wd : Nat) : Prop :=
  ∃ m, vdShape p.cls p.cfg = some ⟨8 * wd, m⟩ ∧ (wd = sewb p.cfg.sew ∧ m = lmul p.cfg ∨
    wd = 2 * sewb p.cfg.sew ∧ m = (lmul p.cfg).times 2)

theorem destWidth_own {p : Plan} (h : vdShape p.cls p.cfg = some (ownShape p.cfg)) : DestWidth p (sewb p.cfg.sew) :=
  ⟨lmul p.cfg, h, Or.inl ⟨rfl, rfl⟩⟩

theorem destWidth_wide {p : Plan} (h : p.cls = .widen) : DestWidth p (2 * sewb p.cfg.sew) := by
  refine ⟨(lmul p.cfg).times 2, ?_, Or.inr ⟨rfl, rfl⟩⟩
  have e : 2 * (8 * sewb p.cfg.sew) = 8 * (2 * sewb p.cfg.sew) := by ring
  rw [h]
  show some (⟨2 * (8 * sewb p.cfg.sew), _⟩ : Shape) = _
  rw [e]

/-- What `exec` of an instruction is: a request that writes elements, or one that writes mask bits, of its own plan. -/
inductive ExecShape (i : Instr) (s : State) : Prop where
  | elem (wd lo : Nat) (gate : Memory → Nat → Bool) (val : Memory → Nat → BitVec (8 * wd) × Bool)
      (h : exec i s = elemRequest (planOf i) wd lo gate val s) (hw : DestWidth (planOf i) wd)
  | bit (gate bit : Memory → Nat → Bool) (h : exec i s = bitRequest (planOf i) gate bit s)
      (hc : (planOf i).cls = .maskDst)

theorem shape_elem {i : Instr} {s : State} {p : Plan} {wd lo : Nat} {gate : Memory → Nat → Bool}
    {val : Memory → Nat → BitVec (8 * wd) × Bool} (hp : planOf i = p) (h : exec i s = elemRequest p wd lo gate val s)
    (hw : DestWidth p wd) : ExecShape i s := by
  subst hp; exact .elem _ _ _ _ h hw

theorem shape_bit {i : Instr} {s : State} {p : Plan} {gate bit : Memory → Nat → Bool} (hp : planOf i = p)
    (h : exec i s = bitRequest p gate bit s) (hc : p.cls = .maskDst) : ExecShape i s := by
  subst hp; exact .bit _ _ h hc

theorem shape_plainOp {i : Instr} {s : State} {f : (W : Nat) → BitVec W → BitVec W → BitVec W} {a : Args}
    (hp : planOf i = maskedPlan .same a) (h : exec i s = plainOp f a s) : ExecShape i s :=
  shape_elem hp h (destWidth_own rfl)

theorem shape_macOp {i : Instr} {s : State} {f : (W : Nat) → BitVec W → BitVec W → BitVec W → BitVec W} {a : Args}
    (hp : planOf i = maskedPlan .same a) (h : exec i s = macOp f a s) : ExecShape i s :=
  shape_elem hp h (destWidth_own rfl)

theorem shape_satOp {i : Instr} {s : State} {f : (W : Nat) → BitVec W → BitVec W → BitVec W × Bool} {a : Args}
    (hp : planOf i = maskedPlan .same a) (h : exec i s = satOp f a s) : ExecShape i s :=
  shape_elem hp h (destWidth_own rfl)

theorem shape_wideMacOp {i : Instr} {s : State} {f : (W V : Nat) → BitVec W → BitVec W → BitVec V → BitVec V} {a : Args}
    (hp : planOf i = maskedPlan .widen a) (h : exec i s = wideMacOp f a s) : ExecShape i s :=
  shape_elem hp h (destWidth_wide rfl)

theorem shape_wideOp {i : Instr} {s : State} {f : (W V : Nat) → BitVec W → BitVec W → BitVec V} {a : Args}
    (hp : planOf i = maskedPlan .widen a) (h : exec i s = wideOp f a s) : ExecShape i s :=
  shape_elem hp h (destWidth_wide rfl)

theorem shape_narrowOp {i : Instr} {s : State} {f : (V W : Nat) → BitVec V → BitVec W → BitVec W} {a : Args}
    (hp : planOf i = maskedPlan .narrow a) (h : exec i s = narrowOp f a s) : ExecShape i s :=
  shape_elem hp h (destWidth_own rfl)

theorem shape_compareOp {i : Instr} {s : State} {p : (W : Nat) → BitVec W → BitVec W → Bool} {a : Args}
    (hp : planOf i = maskedPlan .maskDst a) (h : exec i s = compareOp p a s) : ExecShape i s :=
  shape_bit hp h rfl

theorem shape_carryProducerOp {i : Instr} {s : State} {p : (W : Nat) → BitVec W → BitVec W → Bool → Bool} {a : Args}
    (hp : planOf i = maskedPlan .maskDst a) (h : exec i s = carryProducerOp p a s) : ExecShape i s :=
  shape_bit hp h rfl

theorem shape_carryInOp {i : Instr} {s : State} {f : (W : Nat) → BitVec W → BitVec W → Bool → BitVec W} {a : Args}
    (hp : planOf i = carryPlan a) (h : exec i s = carryInOp f a s) : ExecShape i s :=
  shape_elem hp h (destWidth_own rfl)

theorem shape_mergeOp {i : Instr} {s : State} {f : (W : Nat) → BitVec W → BitVec W → Bool → BitVec W} {a : Args}
    (hp : planOf i = carryPlan a) (h : exec i s = mergeOp f a s) : ExecShape i s :=
  shape_elem hp h (destWidth_own rfl)

theorem shape_moveOp {i : Instr} {s : State} {a : MoveArgs}
    (hp : planOf i = movePlan a) (h : exec i s = moveOp a s) : ExecShape i s :=
  shape_elem hp h (destWidth_own rfl)

theorem shape_slideUpOp {i : Instr} {s : State} {offset : Nat} {a : Args}
    (hp : planOf i = slidePlan true a) (h : exec i s = slideUpOp offset a s) : ExecShape i s :=
  shape_elem hp h (destWidth_own rfl)

theorem shape_slide1UpOp {i : Instr} {s : State} {a : Args}
    (hp : planOf i = slidePlan true a) (h : exec i s = slide1UpOp a s) : ExecShape i s :=
  shape_elem hp h (destWidth_own rfl)

theorem shape_slideDownOp {i : Instr} {s : State} {offset : Nat} {a : Args}
    (hp : planOf i = slidePlan false a) (h : exec i s = slideDownOp offset a s) : ExecShape i s :=
  shape_elem hp h (destWidth_own rfl)

theorem shape_slide1DownOp {i : Instr} {s : State} {a : Args}
    (hp : planOf i = slidePlan false a) (h : exec i s = slide1DownOp a s) : ExecShape i s :=
  shape_elem hp h (destWidth_own rfl)

theorem shape_extOp {i : Instr} {s : State} {k : ExtFactor} {f : (V W : Nat) → BitVec V → BitVec W} {o : OpExt}
    (hp : planOf i = extPlan k o) (h : exec i s = extOp k f o s) : ExecShape i s :=
  shape_elem hp h (destWidth_own rfl)

theorem exec_shape (i : Instr) (s : State) : ExecShape i s :=
  match i with
  | .vaddVV o => shape_plainOp (f := vaddElem) (a := (argsVV o)) rfl rfl
  | .vaddVX o => shape_plainOp (f := vaddElem) (a := (argsVX o)) rfl rfl
  | .vaddVI o => shape_plainOp (f := vaddElem) (a := (argsVIs o)) rfl rfl
  | .vsubVV o => shape_plainOp (f := vsubElem) (a := (argsVV o)) rfl rfl
  | .vsubVX o => shape_plainOp (f := vsubElem) (a := (argsVX o)) rfl rfl
  | .vrsubVX o => shape_plainOp (f := vrsubElem) (a := (argsVX o)) rfl rfl
  | .vrsubVI o => shape_plainOp (f := vrsubElem) (a := (argsVIs o)) rfl rfl
  | .vandVV o => shape_plainOp (f := vandElem) (a := (argsVV o)) rfl rfl
  | .vandVX o => shape_plainOp (f := vandElem) (a := (argsVX o)) rfl rfl
  | .vandVI o => shape_plainOp (f := vandElem) (a := (argsVIs o)) rfl rfl
  | .vorVV o => shape_plainOp (f := vorElem) (a := (argsVV o)) rfl rfl
  | .vorVX o => shape_plainOp (f := vorElem) (a := (argsVX o)) rfl rfl
  | .vorVI o => shape_plainOp (f := vorElem) (a := (argsVIs o)) rfl rfl
  | .vxorVV o => shape_plainOp (f := vxorElem) (a := (argsVV o)) rfl rfl
  | .vxorVX o => shape_plainOp (f := vxorElem) (a := (argsVX o)) rfl rfl
  | .vxorVI o => shape_plainOp (f := vxorElem) (a := (argsVIs o)) rfl rfl
  | .vsllVV o => shape_plainOp (f := vsllElem) (a := (argsVV o)) rfl rfl
  | .vsllVX o => shape_plainOp (f := vsllElem) (a := (argsVX o)) rfl rfl
  | .vsllVI o => shape_plainOp (f := vsllElem) (a := (argsVIu o)) rfl rfl
  | .vsrlVV o => shape_plainOp (f := vsrlElem) (a := (argsVV o)) rfl rfl
  | .vsrlVX o => shape_plainOp (f := vsrlElem) (a := (argsVX o)) rfl rfl
  | .vsrlVI o => shape_plainOp (f := vsrlElem) (a := (argsVIu o)) rfl rfl
  | .vsraVV o => shape_plainOp (f := vsraElem) (a := (argsVV o)) rfl rfl
  | .vsraVX o => shape_plainOp (f := vsraElem) (a := (argsVX o)) rfl rfl
  | .vsraVI o => shape_plainOp (f := vsraElem) (a := (argsVIu o)) rfl rfl
  | .vminuVV o => shape_plainOp (f := vminuElem) (a := (argsVV o)) rfl rfl
  | .vminuVX o => shape_plainOp (f := vminuElem) (a := (argsVX o)) rfl rfl
  | .vminVV o => shape_plainOp (f := vminElem) (a := (argsVV o)) rfl rfl
  | .vminVX o => shape_plainOp (f := vminElem) (a := (argsVX o)) rfl rfl
  | .vmaxuVV o => shape_plainOp (f := vmaxuElem) (a := (argsVV o)) rfl rfl
  | .vmaxuVX o => shape_plainOp (f := vmaxuElem) (a := (argsVX o)) rfl rfl
  | .vmaxVV o => shape_plainOp (f := vmaxElem) (a := (argsVV o)) rfl rfl
  | .vmaxVX o => shape_plainOp (f := vmaxElem) (a := (argsVX o)) rfl rfl
  | .vzextVf2 o => shape_extOp (k := .vf2) (f := vzextVf2Elem) (o := o) rfl rfl
  | .vzextVf4 o => shape_extOp (k := .vf4) (f := vzextVf4Elem) (o := o) rfl rfl
  | .vzextVf8 o => shape_extOp (k := .vf8) (f := vzextVf8Elem) (o := o) rfl rfl
  | .vsextVf2 o => shape_extOp (k := .vf2) (f := vsextVf2Elem) (o := o) rfl rfl
  | .vsextVf4 o => shape_extOp (k := .vf4) (f := vsextVf4Elem) (o := o) rfl rfl
  | .vsextVf8 o => shape_extOp (k := .vf8) (f := vsextVf8Elem) (o := o) rfl rfl
  | .vwadduVV o => shape_wideOp (f := vwadduElem) (a := (argsVV o)) rfl rfl
  | .vwadduVX o => shape_wideOp (f := vwadduElem) (a := (argsVX o)) rfl rfl
  | .vwaddVV o => shape_wideOp (f := vwaddElem) (a := (argsVV o)) rfl rfl
  | .vwaddVX o => shape_wideOp (f := vwaddElem) (a := (argsVX o)) rfl rfl
  | .vwsubuVV o => shape_wideOp (f := vwsubuElem) (a := (argsVV o)) rfl rfl
  | .vwsubuVX o => shape_wideOp (f := vwsubuElem) (a := (argsVX o)) rfl rfl
  | .vwsubVV o => shape_wideOp (f := vwsubElem) (a := (argsVV o)) rfl rfl
  | .vwsubVX o => shape_wideOp (f := vwsubElem) (a := (argsVX o)) rfl rfl
  | .vnsrlWV o => shape_narrowOp (f := vnsrlElem) (a := (argsVV o)) rfl rfl
  | .vnsrlWX o => shape_narrowOp (f := vnsrlElem) (a := (argsVX o)) rfl rfl
  | .vnsrlWI o => shape_narrowOp (f := vnsrlElem) (a := (argsVIu o)) rfl rfl
  | .vnsraWV o => shape_narrowOp (f := vnsraElem) (a := (argsVV o)) rfl rfl
  | .vnsraWX o => shape_narrowOp (f := vnsraElem) (a := (argsVX o)) rfl rfl
  | .vnsraWI o => shape_narrowOp (f := vnsraElem) (a := (argsVIu o)) rfl rfl
  | .vmulVV o => shape_plainOp (f := vmulElem) (a := (argsVV o)) rfl rfl
  | .vmulVX o => shape_plainOp (f := vmulElem) (a := (argsVX o)) rfl rfl
  | .vmulhVV o => shape_plainOp (f := vmulhElem) (a := (argsVV o)) rfl rfl
  | .vmulhVX o => shape_plainOp (f := vmulhElem) (a := (argsVX o)) rfl rfl
  | .vmulhuVV o => shape_plainOp (f := vmulhuElem) (a := (argsVV o)) rfl rfl
  | .vmulhuVX o => shape_plainOp (f := vmulhuElem) (a := (argsVX o)) rfl rfl
  | .vmulhsuVV o => shape_plainOp (f := vmulhsuElem) (a := (argsVV o)) rfl rfl
  | .vmulhsuVX o => shape_plainOp (f := vmulhsuElem) (a := (argsVX o)) rfl rfl
  | .vdivuVV o => shape_plainOp (f := vdivuElem) (a := (argsVV o)) rfl rfl
  | .vdivuVX o => shape_plainOp (f := vdivuElem) (a := (argsVX o)) rfl rfl
  | .vdivVV o => shape_plainOp (f := vdivElem) (a := (argsVV o)) rfl rfl
  | .vdivVX o => shape_plainOp (f := vdivElem) (a := (argsVX o)) rfl rfl
  | .vremuVV o => shape_plainOp (f := vremuElem) (a := (argsVV o)) rfl rfl
  | .vremuVX o => shape_plainOp (f := vremuElem) (a := (argsVX o)) rfl rfl
  | .vremVV o => shape_plainOp (f := vremElem) (a := (argsVV o)) rfl rfl
  | .vremVX o => shape_plainOp (f := vremElem) (a := (argsVX o)) rfl rfl
  | .vwmuluVV o => shape_wideOp (f := vwmuluElem) (a := (argsVV o)) rfl rfl
  | .vwmuluVX o => shape_wideOp (f := vwmuluElem) (a := (argsVX o)) rfl rfl
  | .vwmulVV o => shape_wideOp (f := vwmulElem) (a := (argsVV o)) rfl rfl
  | .vwmulVX o => shape_wideOp (f := vwmulElem) (a := (argsVX o)) rfl rfl
  | .vwmulsuVV o => shape_wideOp (f := vwmulsuElem) (a := (argsVV o)) rfl rfl
  | .vwmulsuVX o => shape_wideOp (f := vwmulsuElem) (a := (argsVX o)) rfl rfl
  | .vmaccVV o => shape_macOp (f := vmaccElem) (a := (argsVV o)) rfl rfl
  | .vmaccVX o => shape_macOp (f := vmaccElem) (a := (argsVX o)) rfl rfl
  | .vnmsacVV o => shape_macOp (f := vnmsacElem) (a := (argsVV o)) rfl rfl
  | .vnmsacVX o => shape_macOp (f := vnmsacElem) (a := (argsVX o)) rfl rfl
  | .vmaddVV o => shape_macOp (f := vmaddElem) (a := (argsVV o)) rfl rfl
  | .vmaddVX o => shape_macOp (f := vmaddElem) (a := (argsVX o)) rfl rfl
  | .vnmsubVV o => shape_macOp (f := vnmsubElem) (a := (argsVV o)) rfl rfl
  | .vnmsubVX o => shape_macOp (f := vnmsubElem) (a := (argsVX o)) rfl rfl
  | .vwmaccuVV o => shape_wideMacOp (f := vwmaccuElem) (a := (argsVV o)) rfl rfl
  | .vwmaccuVX o => shape_wideMacOp (f := vwmaccuElem) (a := (argsVX o)) rfl rfl
  | .vwmaccVV o => shape_wideMacOp (f := vwmaccElem) (a := (argsVV o)) rfl rfl
  | .vwmaccVX o => shape_wideMacOp (f := vwmaccElem) (a := (argsVX o)) rfl rfl
  | .vwmaccsuVV o => shape_wideMacOp (f := vwmaccsuElem) (a := (argsVV o)) rfl rfl
  | .vwmaccsuVX o => shape_wideMacOp (f := vwmaccsuElem) (a := (argsVX o)) rfl rfl
  | .vwmaccusVX o => shape_wideMacOp (f := vwmaccusElem) (a := (argsVX o)) rfl rfl
  | .vmseqVV o => shape_compareOp (p := vmseqBit) (a := (argsVV o)) rfl rfl
  | .vmseqVX o => shape_compareOp (p := vmseqBit) (a := (argsVX o)) rfl rfl
  | .vmseqVI o => shape_compareOp (p := vmseqBit) (a := (argsVIs o)) rfl rfl
  | .vmsneVV o => shape_compareOp (p := vmsneBit) (a := (argsVV o)) rfl rfl
  | .vmsneVX o => shape_compareOp (p := vmsneBit) (a := (argsVX o)) rfl rfl
  | .vmsneVI o => shape_compareOp (p := vmsneBit) (a := (argsVIs o)) rfl rfl
  | .vmsltuVV o => shape_compareOp (p := vmsltuBit) (a := (argsVV o)) rfl rfl
  | .vmsltuVX o => shape_compareOp (p := vmsltuBit) (a := (argsVX o)) rfl rfl
  | .vmsltuVI o => shape_compareOp (p := vmsltuBit) (a := (argsVIs o)) rfl rfl
  | .vmsltVV o => shape_compareOp (p := vmsltBit) (a := (argsVV o)) rfl rfl
  | .vmsltVX o => shape_compareOp (p := vmsltBit) (a := (argsVX o)) rfl rfl
  | .vmsltVI o => shape_compareOp (p := vmsltBit) (a := (argsVIs o)) rfl rfl
  | .vmsleuVV o => shape_compareOp (p := vmsleuBit) (a := (argsVV o)) rfl rfl
  | .vmsleuVX o => shape_compareOp (p := vmsleuBit) (a := (argsVX o)) rfl rfl
  | .vmsleuVI o => shape_compareOp (p := vmsleuBit) (a := (argsVIs o)) rfl rfl
  | .vmsleVV o => shape_compareOp (p := vmsleBit) (a := (argsVV o)) rfl rfl
  | .vmsleVX o => shape_compareOp (p := vmsleBit) (a := (argsVX o)) rfl rfl
  | .vmsleVI o => shape_compareOp (p := vmsleBit) (a := (argsVIs o)) rfl rfl
  | .vmsgtuVV o => shape_compareOp (p := vmsgtuBit) (a := (argsVV o)) rfl rfl
  | .vmsgtuVX o => shape_compareOp (p := vmsgtuBit) (a := (argsVX o)) rfl rfl
  | .vmsgtuVI o => shape_compareOp (p := vmsgtuBit) (a := (argsVIs o)) rfl rfl
  | .vmsgtVV o => shape_compareOp (p := vmsgtBit) (a := (argsVV o)) rfl rfl
  | .vmsgtVX o => shape_compareOp (p := vmsgtBit) (a := (argsVX o)) rfl rfl
  | .vmsgtVI o => shape_compareOp (p := vmsgtBit) (a := (argsVIs o)) rfl rfl
  | .vmsgeuVV o => shape_compareOp (p := vmsgeuBit) (a := (argsVV o)) rfl rfl
  | .vmsgeuVX o => shape_compareOp (p := vmsgeuBit) (a := (argsVX o)) rfl rfl
  | .vmsgeuVI o => shape_compareOp (p := vmsgeuBit) (a := (argsVIs o)) rfl rfl
  | .vmsgeVV o => shape_compareOp (p := vmsgeBit) (a := (argsVV o)) rfl rfl
  | .vmsgeVX o => shape_compareOp (p := vmsgeBit) (a := (argsVX o)) rfl rfl
  | .vmsgeVI o => shape_compareOp (p := vmsgeBit) (a := (argsVIs o)) rfl rfl
  | .vadcVVM o => shape_carryInOp (f := vadcElem) (a := (argsVV o)) rfl rfl
  | .vadcVXM o => shape_carryInOp (f := vadcElem) (a := (argsVX o)) rfl rfl
  | .vadcVIM o => shape_carryInOp (f := vadcElem) (a := (argsVIs o)) rfl rfl
  | .vsbcVVM o => shape_carryInOp (f := vsbcElem) (a := (argsVV o)) rfl rfl
  | .vsbcVXM o => shape_carryInOp (f := vsbcElem) (a := (argsVX o)) rfl rfl
  | .vmadcVV o => shape_carryProducerOp (p := vmadcBit) (a := (argsCV false o)) rfl rfl
  | .vmadcVVM o => shape_carryProducerOp (p := vmadcBit) (a := (argsCV true o)) rfl rfl
  | .vmadcVX o => shape_carryProducerOp (p := vmadcBit) (a := (argsCX false o)) rfl rfl
  | .vmadcVXM o => shape_carryProducerOp (p := vmadcBit) (a := (argsCX true o)) rfl rfl
  | .vmadcVI o => shape_carryProducerOp (p := vmadcBit) (a := (argsCI false o)) rfl rfl
  | .vmadcVIM o => shape_carryProducerOp (p := vmadcBit) (a := (argsCI true o)) rfl rfl
  | .vmsbcVV o => shape_carryProducerOp (p := vmsbcBit) (a := (argsCV false o)) rfl rfl
  | .vmsbcVVM o => shape_carryProducerOp (p := vmsbcBit) (a := (argsCV true o)) rfl rfl
  | .vmsbcVX o => shape_carryProducerOp (p := vmsbcBit) (a := (argsCX false o)) rfl rfl
  | .vmsbcVXM o => shape_carryProducerOp (p := vmsbcBit) (a := (argsCX true o)) rfl rfl
  | .vmergeVVM o => shape_mergeOp (f := vmergeElem) (a := (argsVV o)) rfl rfl
  | .vmergeVXM o => shape_mergeOp (f := vmergeElem) (a := (argsVX o)) rfl rfl
  | .vmergeVIM o => shape_mergeOp (f := vmergeElem) (a := (argsVIs o)) rfl rfl
  | .vmvVV o => shape_moveOp (a := (argsMvV o)) rfl rfl
  | .vmvVX o => shape_moveOp (a := (argsMvX o)) rfl rfl
  | .vmvVI o => shape_moveOp (a := (argsMvI o)) rfl rfl
  | .vslideupVX o => shape_slideUpOp (offset := (scalarOffset s)) (a := (argsVX o)) rfl rfl
  | .vslideupVI o => shape_slideUpOp (offset := o.imm.toNat) (a := (argsVIu o)) rfl rfl
  | .vslidedownVX o => shape_slideDownOp (offset := (scalarOffset s)) (a := (argsVX o)) rfl rfl
  | .vslidedownVI o => shape_slideDownOp (offset := o.imm.toNat) (a := (argsVIu o)) rfl rfl
  | .vslide1upVX o => shape_slide1UpOp (a := (argsVX o)) rfl rfl
  | .vslide1downVX o => shape_slide1DownOp (a := (argsVX o)) rfl rfl
  | .vsadduVV o => shape_satOp (f := vsadduElem) (a := (argsVV o)) rfl rfl
  | .vsadduVX o => shape_satOp (f := vsadduElem) (a := (argsVX o)) rfl rfl
  | .vsadduVI o => shape_satOp (f := vsadduElem) (a := (argsVIs o)) rfl rfl
  | .vsaddVV o => shape_satOp (f := vsaddElem) (a := (argsVV o)) rfl rfl
  | .vsaddVX o => shape_satOp (f := vsaddElem) (a := (argsVX o)) rfl rfl
  | .vsaddVI o => shape_satOp (f := vsaddElem) (a := (argsVIs o)) rfl rfl
  | .vssubuVV o => shape_satOp (f := vssubuElem) (a := (argsVV o)) rfl rfl
  | .vssubuVX o => shape_satOp (f := vssubuElem) (a := (argsVX o)) rfl rfl
  | .vssubVV o => shape_satOp (f := vssubElem) (a := (argsVV o)) rfl rfl
  | .vssubVX o => shape_satOp (f := vssubElem) (a := (argsVX o)) rfl rfl
  | .vaadduVV o => shape_plainOp (f := (vaadduElem o.cfg.vxrm)) (a := (argsVV o)) rfl rfl
  | .vaadduVX o => shape_plainOp (f := (vaadduElem o.cfg.vxrm)) (a := (argsVX o)) rfl rfl
  | .vaaddVV o => shape_plainOp (f := (vaaddElem o.cfg.vxrm)) (a := (argsVV o)) rfl rfl
  | .vaaddVX o => shape_plainOp (f := (vaaddElem o.cfg.vxrm)) (a := (argsVX o)) rfl rfl
  | .vasubuVV o => shape_plainOp (f := (vasubuElem o.cfg.vxrm)) (a := (argsVV o)) rfl rfl
  | .vasubuVX o => shape_plainOp (f := (vasubuElem o.cfg.vxrm)) (a := (argsVX o)) rfl rfl
  | .vasubVV o => shape_plainOp (f := (vasubElem o.cfg.vxrm)) (a := (argsVV o)) rfl rfl
  | .vasubVX o => shape_plainOp (f := (vasubElem o.cfg.vxrm)) (a := (argsVX o)) rfl rfl

/-- Every instruction runs the protocol of its plan (R100, R314). -/
theorem exec_runRequest (i : Instr) (s : State) : ∃ body, exec i s = runRequest (planOf i) body s := by
  cases exec_shape i s with
  | elem wd lo gate val h _ => exact ⟨_, h⟩
  | bit gate bit h _ => exact ⟨_, h⟩

end Sys2Proof.Machine
end

