-- ==== Sys2Proof/Laws/Meanings.lean ====
section
/-! SUPPORT. What `exec` of each instruction calls: one shared operation with its element function or bit predicate. -/

namespace Sys2Proof.Machine

theorem exec_vaddVV (o : OpVV) (s : State) : exec (.vaddVV o) s = plainOp vaddElem (argsVV o) s := rfl
theorem exec_vaddVX (o : OpVX) (s : State) : exec (.vaddVX o) s = plainOp vaddElem (argsVX o) s := rfl
theorem exec_vaddVI (o : OpVI) (s : State) : exec (.vaddVI o) s = plainOp vaddElem (argsVIs o) s := rfl
theorem exec_vsubVV (o : OpVV) (s : State) : exec (.vsubVV o) s = plainOp vsubElem (argsVV o) s := rfl
theorem exec_vsubVX (o : OpVX) (s : State) : exec (.vsubVX o) s = plainOp vsubElem (argsVX o) s := rfl
theorem exec_vrsubVX (o : OpVX) (s : State) : exec (.vrsubVX o) s = plainOp vrsubElem (argsVX o) s := rfl
theorem exec_vrsubVI (o : OpVI) (s : State) : exec (.vrsubVI o) s = plainOp vrsubElem (argsVIs o) s := rfl
theorem exec_vandVV (o : OpVV) (s : State) : exec (.vandVV o) s = plainOp vandElem (argsVV o) s := rfl
theorem exec_vandVX (o : OpVX) (s : State) : exec (.vandVX o) s = plainOp vandElem (argsVX o) s := rfl
theorem exec_vandVI (o : OpVI) (s : State) : exec (.vandVI o) s = plainOp vandElem (argsVIs o) s := rfl
theorem exec_vorVV (o : OpVV) (s : State) : exec (.vorVV o) s = plainOp vorElem (argsVV o) s := rfl
theorem exec_vorVX (o : OpVX) (s : State) : exec (.vorVX o) s = plainOp vorElem (argsVX o) s := rfl
theorem exec_vorVI (o : OpVI) (s : State) : exec (.vorVI o) s = plainOp vorElem (argsVIs o) s := rfl
theorem exec_vxorVV (o : OpVV) (s : State) : exec (.vxorVV o) s = plainOp vxorElem (argsVV o) s := rfl
theorem exec_vxorVX (o : OpVX) (s : State) : exec (.vxorVX o) s = plainOp vxorElem (argsVX o) s := rfl
theorem exec_vxorVI (o : OpVI) (s : State) : exec (.vxorVI o) s = plainOp vxorElem (argsVIs o) s := rfl
theorem exec_vsllVV (o : OpVV) (s : State) : exec (.vsllVV o) s = plainOp vsllElem (argsVV o) s := rfl
theorem exec_vsllVX (o : OpVX) (s : State) : exec (.vsllVX o) s = plainOp vsllElem (argsVX o) s := rfl
theorem exec_vsllVI (o : OpVI) (s : State) : exec (.vsllVI o) s = plainOp vsllElem (argsVIu o) s := rfl
theorem exec_vsrlVV (o : OpVV) (s : State) : exec (.vsrlVV o) s = plainOp vsrlElem (argsVV o) s := rfl
theorem exec_vsrlVX (o : OpVX) (s : State) : exec (.vsrlVX o) s = plainOp vsrlElem (argsVX o) s := rfl
theorem exec_vsrlVI (o : OpVI) (s : State) : exec (.vsrlVI o) s = plainOp vsrlElem (argsVIu o) s := rfl
theorem exec_vsraVV (o : OpVV) (s : State) : exec (.vsraVV o) s = plainOp vsraElem (argsVV o) s := rfl
theorem exec_vsraVX (o : OpVX) (s : State) : exec (.vsraVX o) s = plainOp vsraElem (argsVX o) s := rfl
theorem exec_vsraVI (o : OpVI) (s : State) : exec (.vsraVI o) s = plainOp vsraElem (argsVIu o) s := rfl
theorem exec_vminuVV (o : OpVV) (s : State) : exec (.vminuVV o) s = plainOp vminuElem (argsVV o) s := rfl
theorem exec_vminuVX (o : OpVX) (s : State) : exec (.vminuVX o) s = plainOp vminuElem (argsVX o) s := rfl
theorem exec_vminVV (o : OpVV) (s : State) : exec (.vminVV o) s = plainOp vminElem (argsVV o) s := rfl
theorem exec_vminVX (o : OpVX) (s : State) : exec (.vminVX o) s = plainOp vminElem (argsVX o) s := rfl
theorem exec_vmaxuVV (o : OpVV) (s : State) : exec (.vmaxuVV o) s = plainOp vmaxuElem (argsVV o) s := rfl
theorem exec_vmaxuVX (o : OpVX) (s : State) : exec (.vmaxuVX o) s = plainOp vmaxuElem (argsVX o) s := rfl
theorem exec_vmaxVV (o : OpVV) (s : State) : exec (.vmaxVV o) s = plainOp vmaxElem (argsVV o) s := rfl
theorem exec_vmaxVX (o : OpVX) (s : State) : exec (.vmaxVX o) s = plainOp vmaxElem (argsVX o) s := rfl
theorem exec_vzextVf2 (o : OpExt) (s : State) : exec (.vzextVf2 o) s = extOp .vf2 vzextVf2Elem o s := rfl
theorem exec_vzextVf4 (o : OpExt) (s : State) : exec (.vzextVf4 o) s = extOp .vf4 vzextVf4Elem o s := rfl
theorem exec_vzextVf8 (o : OpExt) (s : State) : exec (.vzextVf8 o) s = extOp .vf8 vzextVf8Elem o s := rfl
theorem exec_vsextVf2 (o : OpExt) (s : State) : exec (.vsextVf2 o) s = extOp .vf2 vsextVf2Elem o s := rfl
theorem exec_vsextVf4 (o : OpExt) (s : State) : exec (.vsextVf4 o) s = extOp .vf4 vsextVf4Elem o s := rfl
theorem exec_vsextVf8 (o : OpExt) (s : State) : exec (.vsextVf8 o) s = extOp .vf8 vsextVf8Elem o s := rfl
theorem exec_vwadduVV (o : OpVV) (s : State) : exec (.vwadduVV o) s = wideOp vwadduElem (argsVV o) s := rfl
theorem exec_vwadduVX (o : OpVX) (s : State) : exec (.vwadduVX o) s = wideOp vwadduElem (argsVX o) s := rfl
theorem exec_vwaddVV (o : OpVV) (s : State) : exec (.vwaddVV o) s = wideOp vwaddElem (argsVV o) s := rfl
theorem exec_vwaddVX (o : OpVX) (s : State) : exec (.vwaddVX o) s = wideOp vwaddElem (argsVX o) s := rfl
theorem exec_vwsubuVV (o : OpVV) (s : State) : exec (.vwsubuVV o) s = wideOp vwsubuElem (argsVV o) s := rfl
theorem exec_vwsubuVX (o : OpVX) (s : State) : exec (.vwsubuVX o) s = wideOp vwsubuElem (argsVX o) s := rfl
theorem exec_vwsubVV (o : OpVV) (s : State) : exec (.vwsubVV o) s = wideOp vwsubElem (argsVV o) s := rfl
theorem exec_vwsubVX (o : OpVX) (s : State) : exec (.vwsubVX o) s = wideOp vwsubElem (argsVX o) s := rfl
theorem exec_vnsrlWV (o : OpVV) (s : State) : exec (.vnsrlWV o) s = narrowOp vnsrlElem (argsVV o) s := rfl
theorem exec_vnsrlWX (o : OpVX) (s : State) : exec (.vnsrlWX o) s = narrowOp vnsrlElem (argsVX o) s := rfl
theorem exec_vnsrlWI (o : OpVI) (s : State) : exec (.vnsrlWI o) s = narrowOp vnsrlElem (argsVIu o) s := rfl
theorem exec_vnsraWV (o : OpVV) (s : State) : exec (.vnsraWV o) s = narrowOp vnsraElem (argsVV o) s := rfl
theorem exec_vnsraWX (o : OpVX) (s : State) : exec (.vnsraWX o) s = narrowOp vnsraElem (argsVX o) s := rfl
theorem exec_vnsraWI (o : OpVI) (s : State) : exec (.vnsraWI o) s = narrowOp vnsraElem (argsVIu o) s := rfl
theorem exec_vmulVV (o : OpVV) (s : State) : exec (.vmulVV o) s = plainOp vmulElem (argsVV o) s := rfl
theorem exec_vmulVX (o : OpVX) (s : State) : exec (.vmulVX o) s = plainOp vmulElem (argsVX o) s := rfl
theorem exec_vmulhVV (o : OpVV) (s : State) : exec (.vmulhVV o) s = plainOp vmulhElem (argsVV o) s := rfl
theorem exec_vmulhVX (o : OpVX) (s : State) : exec (.vmulhVX o) s = plainOp vmulhElem (argsVX o) s := rfl
theorem exec_vmulhuVV (o : OpVV) (s : State) : exec (.vmulhuVV o) s = plainOp vmulhuElem (argsVV o) s := rfl
theorem exec_vmulhuVX (o : OpVX) (s : State) : exec (.vmulhuVX o) s = plainOp vmulhuElem (argsVX o) s := rfl
theorem exec_vmulhsuVV (o : OpVV) (s : State) : exec (.vmulhsuVV o) s = plainOp vmulhsuElem (argsVV o) s := rfl
theorem exec_vmulhsuVX (o : OpVX) (s : State) : exec (.vmulhsuVX o) s = plainOp vmulhsuElem (argsVX o) s := rfl
theorem exec_vdivuVV (o : OpVV) (s : State) : exec (.vdivuVV o) s = plainOp vdivuElem (argsVV o) s := rfl
theorem exec_vdivuVX (o : OpVX) (s : State) : exec (.vdivuVX o) s = plainOp vdivuElem (argsVX o) s := rfl
theorem exec_vdivVV (o : OpVV) (s : State) : exec (.vdivVV o) s = plainOp vdivElem (argsVV o) s := rfl
theorem exec_vdivVX (o : OpVX) (s : State) : exec (.vdivVX o) s = plainOp vdivElem (argsVX o) s := rfl
theorem exec_vremuVV (o : OpVV) (s : State) : exec (.vremuVV o) s = plainOp vremuElem (argsVV o) s := rfl
theorem exec_vremuVX (o : OpVX) (s : State) : exec (.vremuVX o) s = plainOp vremuElem (argsVX o) s := rfl
theorem exec_vremVV (o : OpVV) (s : State) : exec (.vremVV o) s = plainOp vremElem (argsVV o) s := rfl
theorem exec_vremVX (o : OpVX) (s : State) : exec (.vremVX o) s = plainOp vremElem (argsVX o) s := rfl
theorem exec_vwmuluVV (o : OpVV) (s : State) : exec (.vwmuluVV o) s = wideOp vwmuluElem (argsVV o) s := rfl
theorem exec_vwmuluVX (o : OpVX) (s : State) : exec (.vwmuluVX o) s = wideOp vwmuluElem (argsVX o) s := rfl
theorem exec_vwmulVV (o : OpVV) (s : State) : exec (.vwmulVV o) s = wideOp vwmulElem (argsVV o) s := rfl
theorem exec_vwmulVX (o : OpVX) (s : State) : exec (.vwmulVX o) s = wideOp vwmulElem (argsVX o) s := rfl
theorem exec_vwmulsuVV (o : OpVV) (s : State) : exec (.vwmulsuVV o) s = wideOp vwmulsuElem (argsVV o) s := rfl
theorem exec_vwmulsuVX (o : OpVX) (s : State) : exec (.vwmulsuVX o) s = wideOp vwmulsuElem (argsVX o) s := rfl
theorem exec_vmaccVV (o : OpVV) (s : State) : exec (.vmaccVV o) s = macOp vmaccElem (argsVV o) s := rfl
theorem exec_vmaccVX (o : OpVX) (s : State) : exec (.vmaccVX o) s = macOp vmaccElem (argsVX o) s := rfl
theorem exec_vnmsacVV (o : OpVV) (s : State) : exec (.vnmsacVV o) s = macOp vnmsacElem (argsVV o) s := rfl
theorem exec_vnmsacVX (o : OpVX) (s : State) : exec (.vnmsacVX o) s = macOp vnmsacElem (argsVX o) s := rfl
theorem exec_vmaddVV (o : OpVV) (s : State) : exec (.vmaddVV o) s = macOp vmaddElem (argsVV o) s := rfl
theorem exec_vmaddVX (o : OpVX) (s : State) : exec (.vmaddVX o) s = macOp vmaddElem (argsVX o) s := rfl
theorem exec_vnmsubVV (o : OpVV) (s : State) : exec (.vnmsubVV o) s = macOp vnmsubElem (argsVV o) s := rfl
theorem exec_vnmsubVX (o : OpVX) (s : State) : exec (.vnmsubVX o) s = macOp vnmsubElem (argsVX o) s := rfl
theorem exec_vwmaccuVV (o : OpVV) (s : State) : exec (.vwmaccuVV o) s = wideMacOp vwmaccuElem (argsVV o) s := rfl
theorem exec_vwmaccuVX (o : OpVX) (s : State) : exec (.vwmaccuVX o) s = wideMacOp vwmaccuElem (argsVX o) s := rfl
theorem exec_vwmaccVV (o : OpVV) (s : State) : exec (.vwmaccVV o) s = wideMacOp vwmaccElem (argsVV o) s := rfl
theorem exec_vwmaccVX (o : OpVX) (s : State) : exec (.vwmaccVX o) s = wideMacOp vwmaccElem (argsVX o) s := rfl
theorem exec_vwmaccsuVV (o : OpVV) (s : State) : exec (.vwmaccsuVV o) s = wideMacOp vwmaccsuElem (argsVV o) s := rfl
theorem exec_vwmaccsuVX (o : OpVX) (s : State) : exec (.vwmaccsuVX o) s = wideMacOp vwmaccsuElem (argsVX o) s := rfl
theorem exec_vwmaccusVX (o : OpVX) (s : State) : exec (.vwmaccusVX o) s = wideMacOp vwmaccusElem (argsVX o) s := rfl
theorem exec_vmseqVV (o : OpVV) (s : State) : exec (.vmseqVV o) s = compareOp vmseqBit (argsVV o) s := rfl
theorem exec_vmseqVX (o : OpVX) (s : State) : exec (.vmseqVX o) s = compareOp vmseqBit (argsVX o) s := rfl
theorem exec_vmseqVI (o : OpVI) (s : State) : exec (.vmseqVI o) s = compareOp vmseqBit (argsVIs o) s := rfl
theorem exec_vmsneVV (o : OpVV) (s : State) : exec (.vmsneVV o) s = compareOp vmsneBit (argsVV o) s := rfl
theorem exec_vmsneVX (o : OpVX) (s : State) : exec (.vmsneVX o) s = compareOp vmsneBit (argsVX o) s := rfl
theorem exec_vmsneVI (o : OpVI) (s : State) : exec (.vmsneVI o) s = compareOp vmsneBit (argsVIs o) s := rfl
theorem exec_vmsltuVV (o : OpVV) (s : State) : exec (.vmsltuVV o) s = compareOp vmsltuBit (argsVV o) s := rfl
theorem exec_vmsltuVX (o : OpVX) (s : State) : exec (.vmsltuVX o) s = compareOp vmsltuBit (argsVX o) s := rfl
theorem exec_vmsltuVI (o : OpVI) (s : State) : exec (.vmsltuVI o) s = compareOp vmsltuBit (argsVIs o) s := rfl
theorem exec_vmsltVV (o : OpVV) (s : State) : exec (.vmsltVV o) s = compareOp vmsltBit (argsVV o) s := rfl
theorem exec_vmsltVX (o : OpVX) (s : State) : exec (.vmsltVX o) s = compareOp vmsltBit (argsVX o) s := rfl
theorem exec_vmsltVI (o : OpVI) (s : State) : exec (.vmsltVI o) s = compareOp vmsltBit (argsVIs o) s := rfl
theorem exec_vmsleuVV (o : OpVV) (s : State) : exec (.vmsleuVV o) s = compareOp vmsleuBit (argsVV o) s := rfl
theorem exec_vmsleuVX (o : OpVX) (s : State) : exec (.vmsleuVX o) s = compareOp vmsleuBit (argsVX o) s := rfl
theorem exec_vmsleuVI (o : OpVI) (s : State) : exec (.vmsleuVI o) s = compareOp vmsleuBit (argsVIs o) s := rfl
theorem exec_vmsleVV (o : OpVV) (s : State) : exec (.vmsleVV o) s = compareOp vmsleBit (argsVV o) s := rfl
theorem exec_vmsleVX (o : OpVX) (s : State) : exec (.vmsleVX o) s = compareOp vmsleBit (argsVX o) s := rfl
theorem exec_vmsleVI (o : OpVI) (s : State) : exec (.vmsleVI o) s = compareOp vmsleBit (argsVIs o) s := rfl
theorem exec_vmsgtuVV (o : OpVV) (s : State) : exec (.vmsgtuVV o) s = compareOp vmsgtuBit (argsVV o) s := rfl
theorem exec_vmsgtuVX (o : OpVX) (s : State) : exec (.vmsgtuVX o) s = compareOp vmsgtuBit (argsVX o) s := rfl
theorem exec_vmsgtuVI (o : OpVI) (s : State) : exec (.vmsgtuVI o) s = compareOp vmsgtuBit (argsVIs o) s := rfl
theorem exec_vmsgtVV (o : OpVV) (s : State) : exec (.vmsgtVV o) s = compareOp vmsgtBit (argsVV o) s := rfl
theorem exec_vmsgtVX (o : OpVX) (s : State) : exec (.vmsgtVX o) s = compareOp vmsgtBit (argsVX o) s := rfl
theorem exec_vmsgtVI (o : OpVI) (s : State) : exec (.vmsgtVI o) s = compareOp vmsgtBit (argsVIs o) s := rfl
theorem exec_vmsgeuVV (o : OpVV) (s : State) : exec (.vmsgeuVV o) s = compareOp vmsgeuBit (argsVV o) s := rfl
theorem exec_vmsgeuVX (o : OpVX) (s : State) : exec (.vmsgeuVX o) s = compareOp vmsgeuBit (argsVX o) s := rfl
theorem exec_vmsgeuVI (o : OpVI) (s : State) : exec (.vmsgeuVI o) s = compareOp vmsgeuBit (argsVIs o) s := rfl
theorem exec_vmsgeVV (o : OpVV) (s : State) : exec (.vmsgeVV o) s = compareOp vmsgeBit (argsVV o) s := rfl
theorem exec_vmsgeVX (o : OpVX) (s : State) : exec (.vmsgeVX o) s = compareOp vmsgeBit (argsVX o) s := rfl
theorem exec_vmsgeVI (o : OpVI) (s : State) : exec (.vmsgeVI o) s = compareOp vmsgeBit (argsVIs o) s := rfl
theorem exec_vadcVVM (o : OpVV) (s : State) : exec (.vadcVVM o) s = carryInOp vadcElem (argsVV o) s := rfl
theorem exec_vadcVXM (o : OpVX) (s : State) : exec (.vadcVXM o) s = carryInOp vadcElem (argsVX o) s := rfl
theorem exec_vadcVIM (o : OpVI) (s : State) : exec (.vadcVIM o) s = carryInOp vadcElem (argsVIs o) s := rfl
theorem exec_vsbcVVM (o : OpVV) (s : State) : exec (.vsbcVVM o) s = carryInOp vsbcElem (argsVV o) s := rfl
theorem exec_vsbcVXM (o : OpVX) (s : State) : exec (.vsbcVXM o) s = carryInOp vsbcElem (argsVX o) s := rfl
theorem exec_vmadcVV (o : OpCV) (s : State) : exec (.vmadcVV o) s = carryProducerOp vmadcBit (argsCV false o) s := rfl
theorem exec_vmadcVVM (o : OpCV) (s : State) :
    exec (.vmadcVVM o) s = carryProducerOp vmadcBit (argsCV true o) s := rfl
theorem exec_vmadcVX (o : OpCX) (s : State) : exec (.vmadcVX o) s = carryProducerOp vmadcBit (argsCX false o) s := rfl
theorem exec_vmadcVXM (o : OpCX) (s : State) :
    exec (.vmadcVXM o) s = carryProducerOp vmadcBit (argsCX true o) s := rfl
theorem exec_vmadcVI (o : OpCI) (s : State) : exec (.vmadcVI o) s = carryProducerOp vmadcBit (argsCI false o) s := rfl
theorem exec_vmadcVIM (o : OpCI) (s : State) :
    exec (.vmadcVIM o) s = carryProducerOp vmadcBit (argsCI true o) s := rfl
theorem exec_vmsbcVV (o : OpCV) (s : State) : exec (.vmsbcVV o) s = carryProducerOp vmsbcBit (argsCV false o) s := rfl
theorem exec_vmsbcVVM (o : OpCV) (s : State) :
    exec (.vmsbcVVM o) s = carryProducerOp vmsbcBit (argsCV true o) s := rfl
theorem exec_vmsbcVX (o : OpCX) (s : State) : exec (.vmsbcVX o) s = carryProducerOp vmsbcBit (argsCX false o) s := rfl
theorem exec_vmsbcVXM (o : OpCX) (s : State) :
    exec (.vmsbcVXM o) s = carryProducerOp vmsbcBit (argsCX true o) s := rfl
theorem exec_vmergeVVM (o : OpVV) (s : State) : exec (.vmergeVVM o) s = mergeOp vmergeElem (argsVV o) s := rfl
theorem exec_vmergeVXM (o : OpVX) (s : State) : exec (.vmergeVXM o) s = mergeOp vmergeElem (argsVX o) s := rfl
theorem exec_vmergeVIM (o : OpVI) (s : State) : exec (.vmergeVIM o) s = mergeOp vmergeElem (argsVIs o) s := rfl
theorem exec_vmvVV (o : OpMvV) (s : State) : exec (.vmvVV o) s = moveOp (argsMvV o) s := rfl
theorem exec_vmvVX (o : OpMvX) (s : State) : exec (.vmvVX o) s = moveOp (argsMvX o) s := rfl
theorem exec_vmvVI (o : OpMvI) (s : State) : exec (.vmvVI o) s = moveOp (argsMvI o) s := rfl
theorem exec_vslideupVX (o : OpVX) (s : State) :
    exec (.vslideupVX o) s = slideUpOp (scalarOffset s) (argsVX o) s := rfl
theorem exec_vslideupVI (o : OpVI) (s : State) : exec (.vslideupVI o) s = slideUpOp o.imm.toNat (argsVIu o) s := rfl
theorem exec_vslidedownVX (o : OpVX) (s : State) :
    exec (.vslidedownVX o) s = slideDownOp (scalarOffset s) (argsVX o) s := rfl
theorem exec_vslidedownVI (o : OpVI) (s : State) :
    exec (.vslidedownVI o) s = slideDownOp o.imm.toNat (argsVIu o) s := rfl
theorem exec_vslide1upVX (o : OpVX) (s : State) : exec (.vslide1upVX o) s = slide1UpOp (argsVX o) s := rfl
theorem exec_vslide1downVX (o : OpVX) (s : State) : exec (.vslide1downVX o) s = slide1DownOp (argsVX o) s := rfl
theorem exec_vsadduVV (o : OpVV) (s : State) : exec (.vsadduVV o) s = satOp vsadduElem (argsVV o) s := rfl
theorem exec_vsadduVX (o : OpVX) (s : State) : exec (.vsadduVX o) s = satOp vsadduElem (argsVX o) s := rfl
theorem exec_vsadduVI (o : OpVI) (s : State) : exec (.vsadduVI o) s = satOp vsadduElem (argsVIs o) s := rfl
theorem exec_vsaddVV (o : OpVV) (s : State) : exec (.vsaddVV o) s = satOp vsaddElem (argsVV o) s := rfl
theorem exec_vsaddVX (o : OpVX) (s : State) : exec (.vsaddVX o) s = satOp vsaddElem (argsVX o) s := rfl
theorem exec_vsaddVI (o : OpVI) (s : State) : exec (.vsaddVI o) s = satOp vsaddElem (argsVIs o) s := rfl
theorem exec_vssubuVV (o : OpVV) (s : State) : exec (.vssubuVV o) s = satOp vssubuElem (argsVV o) s := rfl
theorem exec_vssubuVX (o : OpVX) (s : State) : exec (.vssubuVX o) s = satOp vssubuElem (argsVX o) s := rfl
theorem exec_vssubVV (o : OpVV) (s : State) : exec (.vssubVV o) s = satOp vssubElem (argsVV o) s := rfl
theorem exec_vssubVX (o : OpVX) (s : State) : exec (.vssubVX o) s = satOp vssubElem (argsVX o) s := rfl
theorem exec_vaadduVV (o : OpVV) (s : State) :
    exec (.vaadduVV o) s = plainOp (vaadduElem o.cfg.vxrm) (argsVV o) s := rfl
theorem exec_vaadduVX (o : OpVX) (s : State) :
    exec (.vaadduVX o) s = plainOp (vaadduElem o.cfg.vxrm) (argsVX o) s := rfl
theorem exec_vaaddVV (o : OpVV) (s : State) : exec (.vaaddVV o) s = plainOp (vaaddElem o.cfg.vxrm) (argsVV o) s := rfl
theorem exec_vaaddVX (o : OpVX) (s : State) : exec (.vaaddVX o) s = plainOp (vaaddElem o.cfg.vxrm) (argsVX o) s := rfl
theorem exec_vasubuVV (o : OpVV) (s : State) :
    exec (.vasubuVV o) s = plainOp (vasubuElem o.cfg.vxrm) (argsVV o) s := rfl
theorem exec_vasubuVX (o : OpVX) (s : State) :
    exec (.vasubuVX o) s = plainOp (vasubuElem o.cfg.vxrm) (argsVX o) s := rfl
theorem exec_vasubVV (o : OpVV) (s : State) : exec (.vasubVV o) s = plainOp (vasubElem o.cfg.vxrm) (argsVV o) s := rfl
theorem exec_vasubVX (o : OpVX) (s : State) : exec (.vasubVX o) s = plainOp (vasubElem o.cfg.vxrm) (argsVX o) s := rfl

end Sys2Proof.Machine
end

