-- ==== Sys2Proof/Laws/PerInstr.lean ====
section
/-! SUPPORT. One lemma per instruction: the decoder reads an instruction's own fields as that instruction (R70, R79, R80). -/

namespace Sys2Proof.Laws

theorem regOfField_regField (r : VReg) : regOfField (regField r) = r := rfl

theorem sew_field (s : Sew) : Sew.ofField s.field = s := by cases s <;> rfl

theorem vxrm_field (r : RoundMode) : RoundMode.ofField r.field = r := by cases r <;> rfl

/-- The configuration fields read back. -/
theorem cfg_fields (c : Cfg) (op : BitVec 8) (form : BitVec 2) (me : Bool) (vd : VReg) (vs1 vs2 : BitVec 5) :
    (c.fields op form me vd vs1 vs2).cfg = c := by
  obtain ⟨sew, n, d, r⟩ := c
  simp only [Fields.cfg, Cfg.fields, sew_field, vxrm_field]

theorem rowVV_fields (mk : OpVV → Instr) (op : BitVec 8) (o : OpVV) : rowVV mk (o.fields op) = .ok (mk o) := by
  simp only [rowVV, OpVV.fields, cfg_fields]; rfl

theorem rowVX_fields (mk : OpVX → Instr) (op : BitVec 8) (o : OpVX) : rowVX mk (o.fields op) = .ok (mk o) := by
  simp only [rowVX, OpVX.fields, cfg_fields]; rfl

theorem rowVI_fields (mk : OpVI → Instr) (op : BitVec 8) (o : OpVI) : rowVI mk (o.fields op) = .ok (mk o) := by
  simp only [rowVI, OpVI.fields, cfg_fields]; rfl

theorem rowExt_fields (mk : OpExt → Instr) (op : BitVec 8) (o : OpExt) : rowExt mk (o.fields op) = .ok (mk o) := by
  simp only [rowExt, OpExt.fields, cfg_fields]; rfl

theorem rowMvV_fields (mk : OpMvV → Instr) (op : BitVec 8) (o : OpMvV) : rowMvV mk (o.fields op) = .ok (mk o) := by
  simp only [rowMvV, OpMvV.fields, cfg_fields]; rfl

theorem rowMvX_fields (mk : OpMvX → Instr) (op : BitVec 8) (o : OpMvX) : rowMvX mk (o.fields op) = .ok (mk o) := by
  simp only [rowMvX, OpMvX.fields, cfg_fields]; rfl

theorem rowMvI_fields (mk : OpMvI → Instr) (op : BitVec 8) (o : OpMvI) : rowMvI mk (o.fields op) = .ok (mk o) := by
  simp only [rowMvI, OpMvI.fields, cfg_fields]; rfl

theorem rowCV_fields (plain withCarry : OpCV → Instr) (op : BitVec 8) (me : Bool) (o : OpCV) :
    rowCV plain withCarry (o.fields op me) = .ok ((if me then withCarry else plain) o) := by
  simp only [rowCV, OpCV.fields, cfg_fields]; rfl

theorem rowCX_fields (plain withCarry : OpCX → Instr) (op : BitVec 8) (me : Bool) (o : OpCX) :
    rowCX plain withCarry (o.fields op me) = .ok ((if me then withCarry else plain) o) := by
  simp only [rowCX, OpCX.fields, cfg_fields]; rfl

theorem rowCI_fields (plain withCarry : OpCI → Instr) (op : BitVec 8) (me : Bool) (o : OpCI) :
    rowCI plain withCarry (o.fields op me) = .ok ((if me then withCarry else plain) o) := by
  simp only [rowCI, OpCI.fields, cfg_fields]; rfl

/-- The family's statement: the decoder reads the instruction's fields as the instruction. -/
def DecodeFields.Statement (i : Instr) : Prop := decodeFields i.fields = .ok i

theorem DecodeFields.vaddVV (o : OpVV) : DecodeFields.Statement (.vaddVV o) := rowVV_fields _ _ o
theorem DecodeFields.vaddVX (o : OpVX) : DecodeFields.Statement (.vaddVX o) := rowVX_fields _ _ o
theorem DecodeFields.vaddVI (o : OpVI) : DecodeFields.Statement (.vaddVI o) := rowVI_fields _ _ o
theorem DecodeFields.vsubVV (o : OpVV) : DecodeFields.Statement (.vsubVV o) := rowVV_fields _ _ o
theorem DecodeFields.vsubVX (o : OpVX) : DecodeFields.Statement (.vsubVX o) := rowVX_fields _ _ o
theorem DecodeFields.vrsubVX (o : OpVX) : DecodeFields.Statement (.vrsubVX o) := rowVX_fields _ _ o
theorem DecodeFields.vrsubVI (o : OpVI) : DecodeFields.Statement (.vrsubVI o) := rowVI_fields _ _ o
theorem DecodeFields.vandVV (o : OpVV) : DecodeFields.Statement (.vandVV o) := rowVV_fields _ _ o
theorem DecodeFields.vandVX (o : OpVX) : DecodeFields.Statement (.vandVX o) := rowVX_fields _ _ o
theorem DecodeFields.vandVI (o : OpVI) : DecodeFields.Statement (.vandVI o) := rowVI_fields _ _ o
theorem DecodeFields.vorVV (o : OpVV) : DecodeFields.Statement (.vorVV o) := rowVV_fields _ _ o
theorem DecodeFields.vorVX (o : OpVX) : DecodeFields.Statement (.vorVX o) := rowVX_fields _ _ o
theorem DecodeFields.vorVI (o : OpVI) : DecodeFields.Statement (.vorVI o) := rowVI_fields _ _ o
theorem DecodeFields.vxorVV (o : OpVV) : DecodeFields.Statement (.vxorVV o) := rowVV_fields _ _ o
theorem DecodeFields.vxorVX (o : OpVX) : DecodeFields.Statement (.vxorVX o) := rowVX_fields _ _ o
theorem DecodeFields.vxorVI (o : OpVI) : DecodeFields.Statement (.vxorVI o) := rowVI_fields _ _ o
theorem DecodeFields.vsllVV (o : OpVV) : DecodeFields.Statement (.vsllVV o) := rowVV_fields _ _ o
theorem DecodeFields.vsllVX (o : OpVX) : DecodeFields.Statement (.vsllVX o) := rowVX_fields _ _ o
theorem DecodeFields.vsllVI (o : OpVI) : DecodeFields.Statement (.vsllVI o) := rowVI_fields _ _ o
theorem DecodeFields.vsrlVV (o : OpVV) : DecodeFields.Statement (.vsrlVV o) := rowVV_fields _ _ o
theorem DecodeFields.vsrlVX (o : OpVX) : DecodeFields.Statement (.vsrlVX o) := rowVX_fields _ _ o
theorem DecodeFields.vsrlVI (o : OpVI) : DecodeFields.Statement (.vsrlVI o) := rowVI_fields _ _ o
theorem DecodeFields.vsraVV (o : OpVV) : DecodeFields.Statement (.vsraVV o) := rowVV_fields _ _ o
theorem DecodeFields.vsraVX (o : OpVX) : DecodeFields.Statement (.vsraVX o) := rowVX_fields _ _ o
theorem DecodeFields.vsraVI (o : OpVI) : DecodeFields.Statement (.vsraVI o) := rowVI_fields _ _ o
theorem DecodeFields.vminuVV (o : OpVV) : DecodeFields.Statement (.vminuVV o) := rowVV_fields _ _ o
theorem DecodeFields.vminuVX (o : OpVX) : DecodeFields.Statement (.vminuVX o) := rowVX_fields _ _ o
theorem DecodeFields.vminVV (o : OpVV) : DecodeFields.Statement (.vminVV o) := rowVV_fields _ _ o
theorem DecodeFields.vminVX (o : OpVX) : DecodeFields.Statement (.vminVX o) := rowVX_fields _ _ o
theorem DecodeFields.vmaxuVV (o : OpVV) : DecodeFields.Statement (.vmaxuVV o) := rowVV_fields _ _ o
theorem DecodeFields.vmaxuVX (o : OpVX) : DecodeFields.Statement (.vmaxuVX o) := rowVX_fields _ _ o
theorem DecodeFields.vmaxVV (o : OpVV) : DecodeFields.Statement (.vmaxVV o) := rowVV_fields _ _ o
theorem DecodeFields.vmaxVX (o : OpVX) : DecodeFields.Statement (.vmaxVX o) := rowVX_fields _ _ o
theorem DecodeFields.vzextVf2 (o : OpExt) : DecodeFields.Statement (.vzextVf2 o) := rowExt_fields _ _ o
theorem DecodeFields.vzextVf4 (o : OpExt) : DecodeFields.Statement (.vzextVf4 o) := rowExt_fields _ _ o
theorem DecodeFields.vzextVf8 (o : OpExt) : DecodeFields.Statement (.vzextVf8 o) := rowExt_fields _ _ o
theorem DecodeFields.vsextVf2 (o : OpExt) : DecodeFields.Statement (.vsextVf2 o) := rowExt_fields _ _ o
theorem DecodeFields.vsextVf4 (o : OpExt) : DecodeFields.Statement (.vsextVf4 o) := rowExt_fields _ _ o
theorem DecodeFields.vsextVf8 (o : OpExt) : DecodeFields.Statement (.vsextVf8 o) := rowExt_fields _ _ o
theorem DecodeFields.vwadduVV (o : OpVV) : DecodeFields.Statement (.vwadduVV o) := rowVV_fields _ _ o
theorem DecodeFields.vwadduVX (o : OpVX) : DecodeFields.Statement (.vwadduVX o) := rowVX_fields _ _ o
theorem DecodeFields.vwaddVV (o : OpVV) : DecodeFields.Statement (.vwaddVV o) := rowVV_fields _ _ o
theorem DecodeFields.vwaddVX (o : OpVX) : DecodeFields.Statement (.vwaddVX o) := rowVX_fields _ _ o
theorem DecodeFields.vwsubuVV (o : OpVV) : DecodeFields.Statement (.vwsubuVV o) := rowVV_fields _ _ o
theorem DecodeFields.vwsubuVX (o : OpVX) : DecodeFields.Statement (.vwsubuVX o) := rowVX_fields _ _ o
theorem DecodeFields.vwsubVV (o : OpVV) : DecodeFields.Statement (.vwsubVV o) := rowVV_fields _ _ o
theorem DecodeFields.vwsubVX (o : OpVX) : DecodeFields.Statement (.vwsubVX o) := rowVX_fields _ _ o
theorem DecodeFields.vnsrlWV (o : OpVV) : DecodeFields.Statement (.vnsrlWV o) := rowVV_fields _ _ o
theorem DecodeFields.vnsrlWX (o : OpVX) : DecodeFields.Statement (.vnsrlWX o) := rowVX_fields _ _ o
theorem DecodeFields.vnsrlWI (o : OpVI) : DecodeFields.Statement (.vnsrlWI o) := rowVI_fields _ _ o
theorem DecodeFields.vnsraWV (o : OpVV) : DecodeFields.Statement (.vnsraWV o) := rowVV_fields _ _ o
theorem DecodeFields.vnsraWX (o : OpVX) : DecodeFields.Statement (.vnsraWX o) := rowVX_fields _ _ o
theorem DecodeFields.vnsraWI (o : OpVI) : DecodeFields.Statement (.vnsraWI o) := rowVI_fields _ _ o
theorem DecodeFields.vmseqVV (o : OpVV) : DecodeFields.Statement (.vmseqVV o) := rowVV_fields _ _ o
theorem DecodeFields.vmseqVX (o : OpVX) : DecodeFields.Statement (.vmseqVX o) := rowVX_fields _ _ o
theorem DecodeFields.vmseqVI (o : OpVI) : DecodeFields.Statement (.vmseqVI o) := rowVI_fields _ _ o
theorem DecodeFields.vmsneVV (o : OpVV) : DecodeFields.Statement (.vmsneVV o) := rowVV_fields _ _ o
theorem DecodeFields.vmsneVX (o : OpVX) : DecodeFields.Statement (.vmsneVX o) := rowVX_fields _ _ o
theorem DecodeFields.vmsneVI (o : OpVI) : DecodeFields.Statement (.vmsneVI o) := rowVI_fields _ _ o
theorem DecodeFields.vmsltuVV (o : OpVV) : DecodeFields.Statement (.vmsltuVV o) := rowVV_fields _ _ o
theorem DecodeFields.vmsltuVX (o : OpVX) : DecodeFields.Statement (.vmsltuVX o) := rowVX_fields _ _ o
theorem DecodeFields.vmsltuVI (o : OpVI) : DecodeFields.Statement (.vmsltuVI o) := rowVI_fields _ _ o
theorem DecodeFields.vmsltVV (o : OpVV) : DecodeFields.Statement (.vmsltVV o) := rowVV_fields _ _ o
theorem DecodeFields.vmsltVX (o : OpVX) : DecodeFields.Statement (.vmsltVX o) := rowVX_fields _ _ o
theorem DecodeFields.vmsltVI (o : OpVI) : DecodeFields.Statement (.vmsltVI o) := rowVI_fields _ _ o
theorem DecodeFields.vmsleuVV (o : OpVV) : DecodeFields.Statement (.vmsleuVV o) := rowVV_fields _ _ o
theorem DecodeFields.vmsleuVX (o : OpVX) : DecodeFields.Statement (.vmsleuVX o) := rowVX_fields _ _ o
theorem DecodeFields.vmsleuVI (o : OpVI) : DecodeFields.Statement (.vmsleuVI o) := rowVI_fields _ _ o
theorem DecodeFields.vmsleVV (o : OpVV) : DecodeFields.Statement (.vmsleVV o) := rowVV_fields _ _ o
theorem DecodeFields.vmsleVX (o : OpVX) : DecodeFields.Statement (.vmsleVX o) := rowVX_fields _ _ o
theorem DecodeFields.vmsleVI (o : OpVI) : DecodeFields.Statement (.vmsleVI o) := rowVI_fields _ _ o
theorem DecodeFields.vmsgtuVV (o : OpVV) : DecodeFields.Statement (.vmsgtuVV o) := rowVV_fields _ _ o
theorem DecodeFields.vmsgtuVX (o : OpVX) : DecodeFields.Statement (.vmsgtuVX o) := rowVX_fields _ _ o
theorem DecodeFields.vmsgtuVI (o : OpVI) : DecodeFields.Statement (.vmsgtuVI o) := rowVI_fields _ _ o
theorem DecodeFields.vmsgtVV (o : OpVV) : DecodeFields.Statement (.vmsgtVV o) := rowVV_fields _ _ o
theorem DecodeFields.vmsgtVX (o : OpVX) : DecodeFields.Statement (.vmsgtVX o) := rowVX_fields _ _ o
theorem DecodeFields.vmsgtVI (o : OpVI) : DecodeFields.Statement (.vmsgtVI o) := rowVI_fields _ _ o
theorem DecodeFields.vmsgeuVV (o : OpVV) : DecodeFields.Statement (.vmsgeuVV o) := rowVV_fields _ _ o
theorem DecodeFields.vmsgeuVX (o : OpVX) : DecodeFields.Statement (.vmsgeuVX o) := rowVX_fields _ _ o
theorem DecodeFields.vmsgeuVI (o : OpVI) : DecodeFields.Statement (.vmsgeuVI o) := rowVI_fields _ _ o
theorem DecodeFields.vmsgeVV (o : OpVV) : DecodeFields.Statement (.vmsgeVV o) := rowVV_fields _ _ o
theorem DecodeFields.vmsgeVX (o : OpVX) : DecodeFields.Statement (.vmsgeVX o) := rowVX_fields _ _ o
theorem DecodeFields.vmsgeVI (o : OpVI) : DecodeFields.Statement (.vmsgeVI o) := rowVI_fields _ _ o
theorem DecodeFields.vmulVV (o : OpVV) : DecodeFields.Statement (.vmulVV o) := rowVV_fields _ _ o
theorem DecodeFields.vmulVX (o : OpVX) : DecodeFields.Statement (.vmulVX o) := rowVX_fields _ _ o
theorem DecodeFields.vmulhVV (o : OpVV) : DecodeFields.Statement (.vmulhVV o) := rowVV_fields _ _ o
theorem DecodeFields.vmulhVX (o : OpVX) : DecodeFields.Statement (.vmulhVX o) := rowVX_fields _ _ o
theorem DecodeFields.vmulhuVV (o : OpVV) : DecodeFields.Statement (.vmulhuVV o) := rowVV_fields _ _ o
theorem DecodeFields.vmulhuVX (o : OpVX) : DecodeFields.Statement (.vmulhuVX o) := rowVX_fields _ _ o
theorem DecodeFields.vmulhsuVV (o : OpVV) : DecodeFields.Statement (.vmulhsuVV o) := rowVV_fields _ _ o
theorem DecodeFields.vmulhsuVX (o : OpVX) : DecodeFields.Statement (.vmulhsuVX o) := rowVX_fields _ _ o
theorem DecodeFields.vdivuVV (o : OpVV) : DecodeFields.Statement (.vdivuVV o) := rowVV_fields _ _ o
theorem DecodeFields.vdivuVX (o : OpVX) : DecodeFields.Statement (.vdivuVX o) := rowVX_fields _ _ o
theorem DecodeFields.vdivVV (o : OpVV) : DecodeFields.Statement (.vdivVV o) := rowVV_fields _ _ o
theorem DecodeFields.vdivVX (o : OpVX) : DecodeFields.Statement (.vdivVX o) := rowVX_fields _ _ o
theorem DecodeFields.vremuVV (o : OpVV) : DecodeFields.Statement (.vremuVV o) := rowVV_fields _ _ o
theorem DecodeFields.vremuVX (o : OpVX) : DecodeFields.Statement (.vremuVX o) := rowVX_fields _ _ o
theorem DecodeFields.vremVV (o : OpVV) : DecodeFields.Statement (.vremVV o) := rowVV_fields _ _ o
theorem DecodeFields.vremVX (o : OpVX) : DecodeFields.Statement (.vremVX o) := rowVX_fields _ _ o
theorem DecodeFields.vwmuluVV (o : OpVV) : DecodeFields.Statement (.vwmuluVV o) := rowVV_fields _ _ o
theorem DecodeFields.vwmuluVX (o : OpVX) : DecodeFields.Statement (.vwmuluVX o) := rowVX_fields _ _ o
theorem DecodeFields.vwmulVV (o : OpVV) : DecodeFields.Statement (.vwmulVV o) := rowVV_fields _ _ o
theorem DecodeFields.vwmulVX (o : OpVX) : DecodeFields.Statement (.vwmulVX o) := rowVX_fields _ _ o
theorem DecodeFields.vwmulsuVV (o : OpVV) : DecodeFields.Statement (.vwmulsuVV o) := rowVV_fields _ _ o
theorem DecodeFields.vwmulsuVX (o : OpVX) : DecodeFields.Statement (.vwmulsuVX o) := rowVX_fields _ _ o
theorem DecodeFields.vmaccVV (o : OpVV) : DecodeFields.Statement (.vmaccVV o) := rowVV_fields _ _ o
theorem DecodeFields.vmaccVX (o : OpVX) : DecodeFields.Statement (.vmaccVX o) := rowVX_fields _ _ o
theorem DecodeFields.vnmsacVV (o : OpVV) : DecodeFields.Statement (.vnmsacVV o) := rowVV_fields _ _ o
theorem DecodeFields.vnmsacVX (o : OpVX) : DecodeFields.Statement (.vnmsacVX o) := rowVX_fields _ _ o
theorem DecodeFields.vmaddVV (o : OpVV) : DecodeFields.Statement (.vmaddVV o) := rowVV_fields _ _ o
theorem DecodeFields.vmaddVX (o : OpVX) : DecodeFields.Statement (.vmaddVX o) := rowVX_fields _ _ o
theorem DecodeFields.vnmsubVV (o : OpVV) : DecodeFields.Statement (.vnmsubVV o) := rowVV_fields _ _ o
theorem DecodeFields.vnmsubVX (o : OpVX) : DecodeFields.Statement (.vnmsubVX o) := rowVX_fields _ _ o
theorem DecodeFields.vwmaccuVV (o : OpVV) : DecodeFields.Statement (.vwmaccuVV o) := rowVV_fields _ _ o
theorem DecodeFields.vwmaccuVX (o : OpVX) : DecodeFields.Statement (.vwmaccuVX o) := rowVX_fields _ _ o
theorem DecodeFields.vwmaccVV (o : OpVV) : DecodeFields.Statement (.vwmaccVV o) := rowVV_fields _ _ o
theorem DecodeFields.vwmaccVX (o : OpVX) : DecodeFields.Statement (.vwmaccVX o) := rowVX_fields _ _ o
theorem DecodeFields.vwmaccsuVV (o : OpVV) : DecodeFields.Statement (.vwmaccsuVV o) := rowVV_fields _ _ o
theorem DecodeFields.vwmaccsuVX (o : OpVX) : DecodeFields.Statement (.vwmaccsuVX o) := rowVX_fields _ _ o
theorem DecodeFields.vwmaccusVX (o : OpVX) : DecodeFields.Statement (.vwmaccusVX o) := rowVX_fields _ _ o
theorem DecodeFields.vadcVVM (o : OpVV) : DecodeFields.Statement (.vadcVVM o) := rowVV_fields _ _ o
theorem DecodeFields.vadcVXM (o : OpVX) : DecodeFields.Statement (.vadcVXM o) := rowVX_fields _ _ o
theorem DecodeFields.vadcVIM (o : OpVI) : DecodeFields.Statement (.vadcVIM o) := rowVI_fields _ _ o
theorem DecodeFields.vsbcVVM (o : OpVV) : DecodeFields.Statement (.vsbcVVM o) := rowVV_fields _ _ o
theorem DecodeFields.vsbcVXM (o : OpVX) : DecodeFields.Statement (.vsbcVXM o) := rowVX_fields _ _ o
theorem DecodeFields.vmadcVV (o : OpCV) : DecodeFields.Statement (.vmadcVV o) := rowCV_fields .vmadcVV .vmadcVVM _ false o
theorem DecodeFields.vmadcVVM (o : OpCV) : DecodeFields.Statement (.vmadcVVM o) := rowCV_fields .vmadcVV .vmadcVVM _ true o
theorem DecodeFields.vmadcVX (o : OpCX) : DecodeFields.Statement (.vmadcVX o) := rowCX_fields .vmadcVX .vmadcVXM _ false o
theorem DecodeFields.vmadcVXM (o : OpCX) : DecodeFields.Statement (.vmadcVXM o) := rowCX_fields .vmadcVX .vmadcVXM _ true o
theorem DecodeFields.vmadcVI (o : OpCI) : DecodeFields.Statement (.vmadcVI o) := rowCI_fields .vmadcVI .vmadcVIM _ false o
theorem DecodeFields.vmadcVIM (o : OpCI) : DecodeFields.Statement (.vmadcVIM o) := rowCI_fields .vmadcVI .vmadcVIM _ true o
theorem DecodeFields.vmsbcVV (o : OpCV) : DecodeFields.Statement (.vmsbcVV o) := rowCV_fields .vmsbcVV .vmsbcVVM _ false o
theorem DecodeFields.vmsbcVVM (o : OpCV) : DecodeFields.Statement (.vmsbcVVM o) := rowCV_fields .vmsbcVV .vmsbcVVM _ true o
theorem DecodeFields.vmsbcVX (o : OpCX) : DecodeFields.Statement (.vmsbcVX o) := rowCX_fields .vmsbcVX .vmsbcVXM _ false o
theorem DecodeFields.vmsbcVXM (o : OpCX) : DecodeFields.Statement (.vmsbcVXM o) := rowCX_fields .vmsbcVX .vmsbcVXM _ true o
theorem DecodeFields.vsadduVV (o : OpVV) : DecodeFields.Statement (.vsadduVV o) := rowVV_fields _ _ o
theorem DecodeFields.vsadduVX (o : OpVX) : DecodeFields.Statement (.vsadduVX o) := rowVX_fields _ _ o
theorem DecodeFields.vsadduVI (o : OpVI) : DecodeFields.Statement (.vsadduVI o) := rowVI_fields _ _ o
theorem DecodeFields.vsaddVV (o : OpVV) : DecodeFields.Statement (.vsaddVV o) := rowVV_fields _ _ o
theorem DecodeFields.vsaddVX (o : OpVX) : DecodeFields.Statement (.vsaddVX o) := rowVX_fields _ _ o
theorem DecodeFields.vsaddVI (o : OpVI) : DecodeFields.Statement (.vsaddVI o) := rowVI_fields _ _ o
theorem DecodeFields.vssubuVV (o : OpVV) : DecodeFields.Statement (.vssubuVV o) := rowVV_fields _ _ o
theorem DecodeFields.vssubuVX (o : OpVX) : DecodeFields.Statement (.vssubuVX o) := rowVX_fields _ _ o
theorem DecodeFields.vssubVV (o : OpVV) : DecodeFields.Statement (.vssubVV o) := rowVV_fields _ _ o
theorem DecodeFields.vssubVX (o : OpVX) : DecodeFields.Statement (.vssubVX o) := rowVX_fields _ _ o
theorem DecodeFields.vaadduVV (o : OpVV) : DecodeFields.Statement (.vaadduVV o) := rowVV_fields _ _ o
theorem DecodeFields.vaadduVX (o : OpVX) : DecodeFields.Statement (.vaadduVX o) := rowVX_fields _ _ o
theorem DecodeFields.vaaddVV (o : OpVV) : DecodeFields.Statement (.vaaddVV o) := rowVV_fields _ _ o
theorem DecodeFields.vaaddVX (o : OpVX) : DecodeFields.Statement (.vaaddVX o) := rowVX_fields _ _ o
theorem DecodeFields.vasubuVV (o : OpVV) : DecodeFields.Statement (.vasubuVV o) := rowVV_fields _ _ o
theorem DecodeFields.vasubuVX (o : OpVX) : DecodeFields.Statement (.vasubuVX o) := rowVX_fields _ _ o
theorem DecodeFields.vasubVV (o : OpVV) : DecodeFields.Statement (.vasubVV o) := rowVV_fields _ _ o
theorem DecodeFields.vasubVX (o : OpVX) : DecodeFields.Statement (.vasubVX o) := rowVX_fields _ _ o
theorem DecodeFields.vmergeVVM (o : OpVV) : DecodeFields.Statement (.vmergeVVM o) := rowVV_fields _ _ o
theorem DecodeFields.vmergeVXM (o : OpVX) : DecodeFields.Statement (.vmergeVXM o) := rowVX_fields _ _ o
theorem DecodeFields.vmergeVIM (o : OpVI) : DecodeFields.Statement (.vmergeVIM o) := rowVI_fields _ _ o
theorem DecodeFields.vmvVV (o : OpMvV) : DecodeFields.Statement (.vmvVV o) := rowMvV_fields _ _ o
theorem DecodeFields.vmvVX (o : OpMvX) : DecodeFields.Statement (.vmvVX o) := rowMvX_fields _ _ o
theorem DecodeFields.vmvVI (o : OpMvI) : DecodeFields.Statement (.vmvVI o) := rowMvI_fields _ _ o
theorem DecodeFields.vslideupVX (o : OpVX) : DecodeFields.Statement (.vslideupVX o) := rowVX_fields _ _ o
theorem DecodeFields.vslideupVI (o : OpVI) : DecodeFields.Statement (.vslideupVI o) := rowVI_fields _ _ o
theorem DecodeFields.vslidedownVX (o : OpVX) : DecodeFields.Statement (.vslidedownVX o) := rowVX_fields _ _ o
theorem DecodeFields.vslidedownVI (o : OpVI) : DecodeFields.Statement (.vslidedownVI o) := rowVI_fields _ _ o
theorem DecodeFields.vslide1upVX (o : OpVX) : DecodeFields.Statement (.vslide1upVX o) := rowVX_fields _ _ o
theorem DecodeFields.vslide1downVX (o : OpVX) : DecodeFields.Statement (.vslide1downVX o) := rowVX_fields _ _ o

end Sys2Proof.Laws
end

