-- ==== Sys2Proof/Laws/Shapes.lean ====
section
/-! SUPPORT. One law per shared operation of Operands: what it writes when the request is carried out, computed from the
register file as it was before the request (R56, R109, R112). -/

namespace Sys2Proof.Machine

/-- An element of a request's own width fits, and its index has a mask bit: the form the laws below use. -/
abbrev FitsAll (s : State) (c : Cfg) : Prop :=
  ∀ j, j < s.port.vl → Fits s.params.vlenb (lmul c) (sewb c.sew) j ∧ j < 8 * s.params.vlenb

theorem fitsAll {p : Plan} {s : State} (hr : Runs p s) : FitsAll s p.cfg := fun _ hj => runs_fits hr hj

theorem FitsAll.below {s : State} {c : Cfg} (h : FitsAll s c) {i : Nat} (hi : i < s.port.vl) :
    ∀ j, j < i → Fits s.params.vlenb (lmul c) (sewb c.sew) j :=
  fun j hj => (h j (Nat.lt_trans hj hi)).1

/-- The answer of a request that writes elements, its loop condition and values named. -/
theorem elemRequest_answer {p : Plan} {wd lo : Nat} {gate : Memory → Nat → Bool}
    {val : Memory → Nat → BitVec (8 * wd) × Bool} {s : State} {wr : Nat → Prop}
    (h : ∃ t, elemRequest p wd lo gate val s = .next t ∧
      Succeeds s t (∃ i, lo ≤ i ∧ i < s.port.vl ∧ gate s.vrf i = true ∧ (val s.vrf i).2 = true) ∧
      WroteElems s t p.vd wd (fun i => lo ≤ i ∧ i < s.port.vl ∧ gate s.vrf i = true) (fun i => (val s.vrf i).1))
    (hwr : (fun i => lo ≤ i ∧ i < s.port.vl ∧ gate s.vrf i = true) = wr) :
    ∃ t, elemRequest p wd lo gate val s = .next t ∧ Succeeds s t (∃ i, wr i ∧ (val s.vrf i).2 = true) ∧
      WroteElems s t p.vd wd wr (fun i => (val s.vrf i).1) := by
  subst hwr
  obtain ⟨t, ht, hsat, hw⟩ := h
  refine ⟨t, ht, hsat.mono ⟨?_, ?_⟩, hw⟩
  · rintro ⟨i, h1, h2, h3, h4⟩; exact ⟨i, ⟨h1, h2, h3⟩, h4⟩
  · rintro ⟨i, ⟨h1, h2, h3⟩, h4⟩; exact ⟨i, h1, h2, h3, h4⟩

/-- A request none of whose elements saturates answers `SAT = 0`. -/
theorem Succeeds.noSat {s t : State} {wr : Nat → Prop} (h : Succeeds s t (∃ i, wr i ∧ false = true)) : Succeeds s t False :=
  h.mono ⟨fun ⟨_, _, h⟩ => absurd h (by decide), False.elim⟩

/-- A masked operation of class SAME, saturating or not (R109, R130). -/
theorem sameOp_done (f : (W : Nat) → BitVec W → BitVec W → BitVec W → BitVec W × Bool) (a : Args) {s : State} (hs : s.inv)
    (hr : Runs (maskedPlan .same a) s) :
    ∃ t, sameOp f a s = .next t ∧
      Succeeds s t (∃ k, Touched s a.me k ∧ (f (8 * sewb a.cfg.sew) (opL s a.vs2 (sewb a.cfg.sew) k)
        (opR s a.rhs (sewb a.cfg.sew) k) (opL s a.vd (sewb a.cfg.sew) k)).2 = true) ∧
      WroteElems s t a.vd (sewb a.cfg.sew) (Touched s a.me) fun k =>
        (f (8 * sewb a.cfg.sew) (opL s a.vs2 (sewb a.cfg.sew) k) (opR s a.rhs (sewb a.cfg.sew) k)
          (opL s a.vd (sewb a.cfg.sew) k)).1 := by
  obtain ⟨h1, h2, h3, -⟩ := validate_ok hr.2.1
  have hvs2 : aligned a.vs2 (lmul a.cfg) = true := h2
  have hvd : aligned a.vd (lmul a.cfg) = true := h3
  have hfit : FitsAll s a.cfg := fitsAll hr
  refine elemRequest_answer (elemRequest_done hs hr ?_) (touched_eq s a.me)
  intro i hlo hi m' ha
  have hown : ∀ v, aligned v (lmul a.cfg) = true →
      Apart s.params.vlenb v (sewb a.cfg.sew) i a.vd (sewb a.cfg.sew) i := fun v hv =>
    apart_own hv hvd (Nat.le_refl i) (hfit i hi).1 (hfit.below hi)
  have e1 : rhsValue s m' a.rhs i (sewb a.cfg.sew) = rhsValue s s.vrf a.rhs i (sewb a.cfg.sew) :=
    rhsValue_apart (fun v hv => hown v (by simpa [vs1Aligned, maskedPlan, hv] using h1)) ha
  have e2 := readElem_apart (hown _ hvs2) ha
  have e3 := readElem_apart (hown _ hvd) ha
  refine ⟨active_apart (masked_vd_ne (by decide) hr.2.2) (hfit i hi).2 ha, ?_⟩
  show f _ _ _ _ = f _ _ _ _
  rw [e1, e2, e3]

/-- The multiplicity of a destination twice as wide has twice the registers, where `LMUL >= 1` (R49, R53). -/
theorem nreg_times {m : Mult} (h : m ∈ admittedPairs) (hf : m.fractional = false) : (m.times 2).nreg = 2 * m.nreg := by
  unfold admittedPairs at h
  simp only [List.mem_cons, List.not_mem_nil, or_false] at h
  rcases h with h | h | h | h | h | h | h <;> subst h <;> revert hf <;> decide

/-- The multiplicity of an extension source has an `f`-th of the registers, where it is at least 1 (R49, R55). -/
theorem nreg_over {m : Mult} (h : m ∈ admittedPairs) (f : ExtFactor) (hf : (m.over f.val).fractional = false) :
    m.nreg = f.val * (m.over f.val).nreg := by
  unfold admittedPairs at h
  simp only [List.mem_cons, List.not_mem_nil, or_false] at h
  rcases h with h | h | h | h | h | h | h <;> subst h <;> cases f <;> revert hf <;> decide

/-- A widening operation, with or without an accumulator (R160, R190). -/
theorem wideMacOp_done (f : (W V : Nat) → BitVec W → BitVec W → BitVec V → BitVec V) (a : Args) {s : State} (hs : s.inv)
    (hr : Runs (maskedPlan .widen a) s) :
    ∃ t, wideMacOp f a s = .next t ∧ Succeeds s t False ∧
      WroteElems s t a.vd (2 * sewb a.cfg.sew) (Touched s a.me) fun k =>
        f (8 * sewb a.cfg.sew) (8 * (2 * sewb a.cfg.sew)) (opL s a.vs2 (sewb a.cfg.sew) k)
          (opR s a.rhs (sewb a.cfg.sew) k) (opL s a.vd (2 * sewb a.cfg.sew) k) := by
  obtain ⟨-, -, -, h4, h5, -⟩ := validate_ok hr.2.1
  have hvs2 : widenOk a.vd a.vs2 (lmul a.cfg) ((lmul a.cfg).times 2) = true := h5
  have hfit : FitsAll s a.cfg := fitsAll hr
  have hadm : lmul a.cfg ∈ admittedPairs := lmul_admitted hr.1.1
  obtain ⟨t, ht, hsat, hw⟩ := elemRequest_answer (elemRequest_done hs hr (wd := 2 * sewb a.cfg.sew)
    (lo := s.port.vstart) (gate := active s.params.vlenb a.me)
    (val := fun m i => (f (8 * sewb a.cfg.sew) (8 * (2 * sewb a.cfg.sew)) (readElem s.params.vlenb m a.vs2 i (sewb a.cfg.sew))
      (rhsValue s m a.rhs i (sewb a.cfg.sew)) (readElem s.params.vlenb m a.vd i (2 * sewb a.cfg.sew)), false)) (by
    intro i hlo hi m' ha
    have hwide : ∀ v, widenOk a.vd v (lmul a.cfg) ((lmul a.cfg).times 2) = true →
        Apart s.params.vlenb v (sewb a.cfg.sew) i a.vd (2 * sewb a.cfg.sew) i := fun v hv =>
      apart_widen hv (f := 2) (by decide) rfl (fun hf => nreg_times hadm hf) (hfit i hi).1
        fun j hj => fits_wide (hfit.below hi j hj)
    have e1 : rhsValue s m' a.rhs i (sewb a.cfg.sew) = rhsValue s s.vrf a.rhs i (sewb a.cfg.sew) :=
      rhsValue_apart (fun v hv => hwide v (by simpa [vs1OverlapOk, maskedPlan, hv] using h4)) ha
    have e2 := readElem_apart (hwide _ hvs2) ha
    have e3 := readElem_apart (vd := a.vd) (apart_self (r := a.vd) (Nat.le_refl i)) ha
    refine ⟨active_apart (masked_vd_ne (by decide) hr.2.2) (hfit i hi).2 ha, ?_⟩
    show (f _ _ _ _ _, false) = (f _ _ _ _ _, false)
    rw [e1, e2, e3])) (touched_eq s a.me)
  exact ⟨t, ht, hsat.noSat, hw⟩

/-- A narrowing operation (R160). -/
theorem narrowOp_done (f : (V W : Nat) → BitVec V → BitVec W → BitVec W) (a : Args) {s : State} (hs : s.inv)
    (hr : Runs (maskedPlan .narrow a) s) :
    ∃ t, narrowOp f a s = .next t ∧ Succeeds s t False ∧
      WroteElems s t a.vd (sewb a.cfg.sew) (Touched s a.me) fun k =>
        f (8 * (2 * sewb a.cfg.sew)) (8 * sewb a.cfg.sew) (opL s a.vs2 (2 * sewb a.cfg.sew) k)
          (opR s a.rhs (sewb a.cfg.sew) k) := by
  obtain ⟨h1, -, h3, -, -, h6⟩ := validate_ok hr.2.1
  have hvd : aligned a.vd (lmul a.cfg) = true := h3
  have hvs2 : narrowOk a.vd a.vs2 (lmul a.cfg) ((lmul a.cfg).times 2) = true := h6
  have hfit : FitsAll s a.cfg := fitsAll hr
  obtain ⟨t, ht, hsat, hw⟩ := elemRequest_answer (elemRequest_done hs hr (wd := sewb a.cfg.sew)
    (lo := s.port.vstart) (gate := active s.params.vlenb a.me)
    (val := fun m i => (f (8 * (2 * sewb a.cfg.sew)) (8 * sewb a.cfg.sew)
      (readElem s.params.vlenb m a.vs2 i (2 * sewb a.cfg.sew)) (rhsValue s m a.rhs i (sewb a.cfg.sew)), false)) (by
    intro i hlo hi m' ha
    have e1 : rhsValue s m' a.rhs i (sewb a.cfg.sew) = rhsValue s s.vrf a.rhs i (sewb a.cfg.sew) :=
      rhsValue_apart (fun v hv => apart_own (by simpa [vs1Aligned, maskedPlan, hv] using h1) hvd (Nat.le_refl i)
        (hfit i hi).1 (hfit.below hi)) ha
    have e2 := readElem_apart (apart_narrow hvs2 (fits_wide (hfit i hi).1) (hfit.below hi)) ha
    refine ⟨active_apart (masked_vd_ne (by decide) hr.2.2) (hfit i hi).2 ha, ?_⟩
    show (f _ _ _ _, false) = (f _ _ _ _, false)
    rw [e1, e2])) (touched_eq s a.me)
  exact ⟨t, ht, hsat.noSat, hw⟩

/-- The width of an extension source divides the element width in an admitted configuration (R84, R160). -/
theorem ext_width {f : ExtFactor} {c : Cfg} (h : cfgError (.ext f) c = none) :
    sewb c.sew = f.val * (sewb c.sew / f.val) := by
  have hm := lmul_admitted h
  unfold cfgError at h
  rw [if_neg (by simpa using hm)] at h
  revert h
  cases f <;> cases hsew : c.sew <;>
    simp [shapes, vdShape, vs2Shape, fracShape, ownShape, sewBits, sewb, ExtFactor.val, hsew]

/-- An extension (R160). -/
theorem extOp_done (k : ExtFactor) (f : (V W : Nat) → BitVec V → BitVec W) (o : OpExt) {s : State} (hs : s.inv)
    (hr : Runs (extPlan k o) s) :
    ∃ t, extOp k f o s = .next t ∧ Succeeds s t False ∧
      WroteElems s t o.vd (sewb o.cfg.sew) (Touched s o.me) fun j =>
        f (8 * (sewb o.cfg.sew / k.val)) (8 * sewb o.cfg.sew) (opL s o.vs2 (sewb o.cfg.sew / k.val) j) := by
  obtain ⟨-, -, -, -, h5, -⟩ := validate_ok hr.2.1
  have hvs2 : widenOk o.vd o.vs2 ((lmul o.cfg).over k.val) (lmul o.cfg) = true := h5
  have hfit : FitsAll s o.cfg := fitsAll hr
  have hadm : lmul o.cfg ∈ admittedPairs := lmul_admitted hr.1.1
  have hk : 0 < k.val := by cases k <;> decide
  have hvd : o.me = true → o.vd.val ≠ 0 := fun hm h0 =>
    (hazard_none hr.2.2).1 ⟨by simp [extPlan], hm, h0⟩
  obtain ⟨t, ht, hsat, hw⟩ := elemRequest_answer (elemRequest_done hs hr (wd := sewb o.cfg.sew)
    (lo := s.port.vstart) (gate := active s.params.vlenb o.me)
    (val := fun m i => (f (8 * (sewb o.cfg.sew / k.val)) (8 * sewb o.cfg.sew)
      (readElem s.params.vlenb m o.vs2 i (sewb o.cfg.sew / k.val)), false)) (by
    intro i hlo hi m' ha
    have e2 := readElem_apart (apart_widen hvs2 hk (ext_width (c := o.cfg) hr.1.1) (fun hf => nreg_over hadm k hf)
      (fits_frac hk (hfit i hi).1) (hfit.below hi)) ha
    refine ⟨active_apart hvd (hfit i hi).2 ha, ?_⟩
    show (f _ _ _, false) = (f _ _ _, false)
    rw [e2])) (touched_eq s o.me)
  exact ⟨t, ht, hsat.noSat, hw⟩

/-- A mask destination that is no hazard lies in no source group above its base register (R339). -/
theorem maskDst_apart {a : Args} (h : hazard (maskedPlan .maskDst a) = none) (hadm : lmul a.cfg ∈ admittedPairs) :
    insideGroup a.vd a.vs2 (lmul a.cfg) = false ∧ ∀ v, a.rhs.reg = some v → insideGroup a.vd v (lmul a.cfg) = false := by
  have hm := (hazard_none h).2.2
  have hsmall : ∀ v : VReg, ¬ 2 * (lmul a.cfg).den ≤ (lmul a.cfg).num → insideGroup a.vd v (lmul a.cfg) = false := by
    intro v hl
    have hn : (lmul a.cfg).nreg = 1 := by
      generalize lmul a.cfg = m at hadm hl
      unfold admittedPairs at hadm
      simp only [List.mem_cons, List.not_mem_nil, or_false] at hadm
      rcases hadm with h | h | h | h | h | h | h <;> subst h <;> revert hl <;> decide
    unfold insideGroup
    rw [hn, Bool.and_eq_false_iff]
    by_cases hv : v.val < a.vd.val
    · exact Or.inr (decide_eq_false (by omega))
    · exact Or.inl (decide_eq_false hv)
  by_cases hl : 2 * (lmul a.cfg).den ≤ (lmul a.cfg).num
  · have hl' : 2 * (lmul (maskedPlan .maskDst a).cfg).den ≤ (lmul (maskedPlan .maskDst a).cfg).num := hl
    simp only [maskInsideSource, hl', decide_true, Bool.true_and] at hm
    have hall : insideGroup a.vd a.vs2 (lmul a.cfg) = false ∧
        ∀ v, a.rhs.reg = some v → insideGroup a.vd v (lmul a.cfg) = false := by
      simpa [maskedPlan] using hm
    exact hall
  · exact ⟨hsmall _ hl, fun v _ => hsmall v hl⟩

/-- A comparison (R112, R230). -/
theorem compareOp_done (p : (W : Nat) → BitVec W → BitVec W → Bool) (a : Args) {s : State} (hs : s.inv)
    (hr : Runs (maskedPlan .maskDst a) s) :
    ∃ t, compareOp p a s = .next t ∧ Succeeds s t False ∧
      WroteBits s t a.vd (Touched s a.me) fun k =>
        p (8 * sewb a.cfg.sew) (opL s a.vs2 (sewb a.cfg.sew) k) (opR s a.rhs (sewb a.cfg.sew) k) := by
  have hfit : FitsAll s a.cfg := fitsAll hr
  have hsrc := maskDst_apart hr.2.2 (lmul_admitted hr.1.1)
  obtain ⟨t, ht, hsat, hw⟩ := bitRequest_done hs hr (gate := active s.params.vlenb a.me)
    (bit := fun m i => p (8 * sewb a.cfg.sew) (readElem s.params.vlenb m a.vs2 i (sewb a.cfg.sew))
      (rhsValue s m a.rhs i (sewb a.cfg.sew))) (by
    intro i hlo hi m' ha
    have e1 := rhsValue_bits (s := s) (sewb_pos a.cfg.sew) hsrc.2 (hfit i hi).1 (hfit i hi).2 ha
    have e2 := readElem_bits (sewb_pos a.cfg.sew) hsrc.1 (hfit i hi).1 (hfit i hi).2 ha
    refine ⟨?_, ?_⟩
    · show active _ _ _ _ = active _ _ _ _
      unfold active
      rw [readBit_bits (hfit i hi).2 ha]
    · show p _ _ _ = p _ _ _
      rw [e1, e2])
  refine ⟨t, ht, hsat, ?_⟩
  have e : (fun i => InLoop s i ∧ active s.params.vlenb a.me s.vrf i = true) = Touched s a.me := by
    funext i; rw [active_iff]
  rw [e] at hw
  exact hw

/-- A carry or borrow producer (R243, R244). -/
theorem carryProducerOp_done (p : (W : Nat) → BitVec W → BitVec W → Bool → Bool) (a : Args) {s : State} (hs : s.inv)
    (hr : Runs (maskedPlan .maskDst a) s) :
    ∃ t, carryProducerOp p a s = .next t ∧ Succeeds s t False ∧
      WroteBits s t a.vd (InLoop s) fun k =>
        p (8 * sewb a.cfg.sew) (opL s a.vs2 (sewb a.cfg.sew) k) (opR s a.rhs (sewb a.cfg.sew) k) (a.me && bitV0 s k) := by
  have hfit : FitsAll s a.cfg := fitsAll hr
  have hsrc := maskDst_apart hr.2.2 (lmul_admitted hr.1.1)
  obtain ⟨t, ht, hsat, hw⟩ := bitRequest_done hs hr (gate := fun _ _ => true)
    (bit := fun m i => p (8 * sewb a.cfg.sew) (readElem s.params.vlenb m a.vs2 i (sewb a.cfg.sew))
      (rhsValue s m a.rhs i (sewb a.cfg.sew)) (a.me && readBit s.params.vlenb m 0 i)) (by
    intro i hlo hi m' ha
    have e1 := rhsValue_bits (s := s) (sewb_pos a.cfg.sew) hsrc.2 (hfit i hi).1 (hfit i hi).2 ha
    have e2 := readElem_bits (sewb_pos a.cfg.sew) hsrc.1 (hfit i hi).1 (hfit i hi).2 ha
    have e3 := readBit_bits (hfit i hi).2 ha
    refine ⟨rfl, ?_⟩
    show p _ _ _ _ = p _ _ _ _
    rw [e1, e2, e3])
  refine ⟨t, ht, hsat, ?_⟩
  have e : (fun i => InLoop s i ∧ (fun (_ : Memory) (_ : Nat) => true) s.vrf i = true) = InLoop s := by
    funext i; simp
  rw [e] at hw
  exact hw

/-- The request that reads a bit of `v0` with every element does not write `v0` (R336, R337). -/
theorem carry_vd_ne {a : Args} (h : hazard (carryPlan a) = none) : a.vd.val ≠ 0 := fun h0 =>
  (hazard_none h).1 ⟨by simp [carryPlan], rfl, h0⟩

/-- Add with carry, subtract with borrow and merge, from element `lo` on (R241, R242, R260). -/
theorem carryRequest_done (f : (W : Nat) → BitVec W → BitVec W → Bool → BitVec W) (a : Args) (lo : Nat) {s : State}
    (hs : s.inv) (hr : Runs (carryPlan a) s) :
    ∃ t, elemRequest (carryPlan a) (sewb a.cfg.sew) lo (fun _ _ => true)
        (fun m i => (f (8 * sewb a.cfg.sew) (readElem s.params.vlenb m a.vs2 i (sewb a.cfg.sew))
          (rhsValue s m a.rhs i (sewb a.cfg.sew)) (readBit s.params.vlenb m 0 i), false)) s = .next t ∧
      Succeeds s t False ∧
      WroteElems s t a.vd (sewb a.cfg.sew) (fun i => lo ≤ i ∧ i < s.port.vl) fun k =>
        f (8 * sewb a.cfg.sew) (opL s a.vs2 (sewb a.cfg.sew) k) (opR s a.rhs (sewb a.cfg.sew) k) (bitV0 s k) := by
  obtain ⟨h1, h2, h3, -⟩ := validate_ok hr.2.1
  have hvs2 : aligned a.vs2 (lmul a.cfg) = true := h2
  have hvd : aligned a.vd (lmul a.cfg) = true := h3
  have hfit : FitsAll s a.cfg := fitsAll hr
  obtain ⟨t, ht, hsat, hw⟩ := elemRequest_answer (elemRequest_done hs hr (wd := sewb a.cfg.sew) (lo := lo)
    (gate := fun _ _ => true)
    (val := fun m i => (f (8 * sewb a.cfg.sew) (readElem s.params.vlenb m a.vs2 i (sewb a.cfg.sew))
      (rhsValue s m a.rhs i (sewb a.cfg.sew)) (readBit s.params.vlenb m 0 i), false)) (by
    intro i hlo hi m' ha
    have hown : ∀ v, aligned v (lmul a.cfg) = true →
        Apart s.params.vlenb v (sewb a.cfg.sew) i a.vd (sewb a.cfg.sew) i := fun v hv =>
      apart_own hv hvd (Nat.le_refl i) (hfit i hi).1 (hfit.below hi)
    have e1 : rhsValue s m' a.rhs i (sewb a.cfg.sew) = rhsValue s s.vrf a.rhs i (sewb a.cfg.sew) :=
      rhsValue_apart (fun v hv => hown v (by simpa [vs1Aligned, carryPlan, hv] using h1)) ha
    have e2 := readElem_apart (hown _ hvs2) ha
    have e3 := readBit_apart (carry_vd_ne hr.2.2) (hfit i hi).2 ha
    refine ⟨rfl, ?_⟩
    show (f _ _ _ _, false) = (f _ _ _ _, false)
    rw [e1, e2, e3])) (wr := fun i => lo ≤ i ∧ i < s.port.vl) (by funext i; simp)
  exact ⟨t, ht, hsat.noSat, hw⟩

/-- Add with carry and subtract with borrow (R241, R242). -/
theorem carryInOp_done (f : (W : Nat) → BitVec W → BitVec W → Bool → BitVec W) (a : Args) {s : State}
    (hs : s.inv) (hr : Runs (carryPlan a) s) :
    ∃ t, carryInOp f a s = .next t ∧ Succeeds s t False ∧
      WroteElems s t a.vd (sewb a.cfg.sew) (InLoop s) fun k =>
        f (8 * sewb a.cfg.sew) (opL s a.vs2 (sewb a.cfg.sew) k) (opR s a.rhs (sewb a.cfg.sew) k) (bitV0 s k) :=
  carryRequest_done f a s.port.vstart hs hr

/-- Merge: all of `[0, VL)` is written (R260). -/
theorem mergeOp_done (f : (W : Nat) → BitVec W → BitVec W → Bool → BitVec W) (a : Args) {s : State}
    (hs : s.inv) (hr : Runs (carryPlan a) s) :
    ∃ t, mergeOp f a s = .next t ∧ Succeeds s t False ∧
      WroteElems s t a.vd (sewb a.cfg.sew) (fun i => i < s.port.vl) fun k =>
        f (8 * sewb a.cfg.sew) (opL s a.vs2 (sewb a.cfg.sew) k) (opR s a.rhs (sewb a.cfg.sew) k) (bitV0 s k) := by
  obtain ⟨t, ht, hsat, hw⟩ := carryRequest_done f a 0 hs hr
  refine ⟨t, ht, hsat, ?_⟩
  have e : (fun i => 0 ≤ i ∧ i < s.port.vl) = fun i => i < s.port.vl := by funext i; simp
  rw [e] at hw
  exact hw

/-- Move (R261). -/
theorem moveOp_done (a : MoveArgs) {s : State} (hs : s.inv) (hr : Runs (movePlan a) s) :
    ∃ t, moveOp a s = .next t ∧ Succeeds s t False ∧
      WroteElems s t a.vd (sewb a.cfg.sew) (InLoop s) fun k => opR s a.rhs (sewb a.cfg.sew) k := by
  obtain ⟨h1, -, h3, -⟩ := validate_ok hr.2.1
  have hvd : aligned a.vd (lmul a.cfg) = true := h3
  have hfit : FitsAll s a.cfg := fitsAll hr
  obtain ⟨t, ht, hsat, hw⟩ := elemRequest_answer (elemRequest_done hs hr (wd := sewb a.cfg.sew) (lo := s.port.vstart)
    (gate := fun _ _ => true) (val := fun m i => (rhsValue s m a.rhs i (sewb a.cfg.sew), false)) (by
    intro i hlo hi m' ha
    have e1 : rhsValue s m' a.rhs i (sewb a.cfg.sew) = rhsValue s s.vrf a.rhs i (sewb a.cfg.sew) :=
      rhsValue_apart (fun v hv => apart_own (by simpa [vs1Aligned, movePlan, hv] using h1) hvd (Nat.le_refl i)
        (hfit i hi).1 (hfit.below hi)) ha
    refine ⟨rfl, ?_⟩
    show (rhsValue _ _ _ _ _, false) = (rhsValue _ _ _ _ _, false)
    rw [e1])) (inLoop_eq s)
  exact ⟨t, ht, hsat.noSat, hw⟩

/-- A slide whose source values the earlier writes cannot change (R262). -/
theorem slideOp_done (up : Bool) (lo : Nat) (a : Args) (src : Memory → Nat → BitVec (8 * sewb a.cfg.sew)) {s : State}
    (hs : s.inv) (hr : Runs (slidePlan up a) s) (hlo : s.port.vstart ≤ lo)
    (hsrc : ∀ i, lo ≤ i → i < s.port.vl → ∀ m',
      AgreesBelow s.params.vlenb a.vd (sewb a.cfg.sew) lo i s.vrf m' → src m' i = src s.vrf i) :
    ∃ t, slideOp up lo a src s = .next t ∧ Succeeds s t False ∧
      WroteElems s t a.vd (sewb a.cfg.sew) (fun k => Touched s a.me k ∧ lo ≤ k) (src s.vrf) := by
  have hfit : FitsAll s a.cfg := fitsAll hr
  have hvd : a.me = true → a.vd.val ≠ 0 := fun hm h0 => (hazard_none hr.2.2).1 ⟨by simp [slidePlan], hm, h0⟩
  obtain ⟨t, ht, hsat, hw⟩ := elemRequest_answer (elemRequest_done hs hr (wd := sewb a.cfg.sew) (lo := lo)
    (gate := active s.params.vlenb a.me) (val := fun m i => (src m i, false)) (by
    intro i hlo hi m' ha
    refine ⟨active_apart hvd (hfit i hi).2 ha, ?_⟩
    show (src _ _, false) = (src _ _, false)
    rw [hsrc i hlo hi m' ha])) (wr := fun k => Touched s a.me k ∧ lo ≤ k) (by
      funext i
      rw [active_iff]
      exact propext ⟨fun h => ⟨⟨⟨by omega, h.2.1⟩, h.2.2⟩, h.1⟩, fun h => ⟨h.2, h.1.1.2, h.1.2⟩⟩)
  exact ⟨t, ht, hsat.noSat, hw⟩

/-- What validation says of a slide's groups (R102). -/
theorem slide_aligned {up : Bool} {a : Args} (h : validate (slidePlan up a) = .noExcept) :
    aligned a.vs2 (lmul a.cfg) = true ∧ aligned a.vd (lmul a.cfg) = true := by
  obtain ⟨-, h2, h3, -⟩ := validate_ok h
  exact ⟨h2, h3⟩

/-- A slide-up's groups are disjoint: `vd == vs2` is a hazard (R338). -/
theorem slideUp_disjoint {a : Args} (hv : validate (slidePlan true a) = .noExcept) (hh : hazard (slidePlan true a) = none) :
    disjointGroups a.vd (lmul a.cfg) a.vs2 (lmul a.cfg) = true := by
  obtain ⟨h2, h3⟩ := slide_aligned hv
  refine aligned_disjoint h3 h2 fun h => (hazard_none hh).2.1 ⟨rfl, ?_⟩
  show some a.vs2 = some a.vd
  rw [h]

/-- Slide-up (R263). -/
theorem slideUpOp_done (offset : Nat) (a : Args) {s : State} (hs : s.inv) (hr : Runs (slidePlan true a) s) :
    ∃ t, slideUpOp offset a s = .next t ∧ Succeeds s t False ∧
      WroteElems s t a.vd (sewb a.cfg.sew) (fun k => Touched s a.me k ∧ offset ≤ k)
        fun k => opL s a.vs2 (sewb a.cfg.sew) (k - offset) := by
  have hfit : FitsAll s a.cfg := fitsAll hr
  have hd := slideUp_disjoint hr.2.1 hr.2.2
  obtain ⟨t, ht, hsat, hw⟩ := slideOp_done true (max s.port.vstart offset) a
    (fun m i => readElem s.params.vlenb m a.vs2 (i - offset) (sewb a.cfg.sew)) hs hr (Nat.le_max_left _ _) (by
    intro i hlo hi m' ha
    exact readElem_apart (apart_disjoint hd (hfit (i - offset) (by omega)).1 (hfit.below hi)) ha)
  refine ⟨t, ht, hsat, ?_⟩
  have e : (fun k => Touched s a.me k ∧ max s.port.vstart offset ≤ k) = fun k => Touched s a.me k ∧ offset ≤ k := by
    funext k
    refine propext ⟨fun h => ⟨h.1, by omega⟩, fun h => ⟨h.1, ?_⟩⟩
    have := h.1.1.1
    omega
  rw [e] at hw
  exact hw

theorem wroteElems_start {s t : State} {vd : VReg} {w : Nat} {me : Bool} {val : Nat → BitVec (8 * w)}
    (h : WroteElems s t vd w (fun k => Touched s me k ∧ s.port.vstart ≤ k) val) : WroteElems s t vd w (Touched s me) val := by
  have e : (fun k => Touched s me k ∧ s.port.vstart ≤ k) = Touched s me := by
    funext k
    exact propext ⟨fun h => h.1, fun h => ⟨h, h.1.1⟩⟩
  rwa [e] at h

/-- Slide-down (R264). -/
theorem slideDownOp_done (offset : Nat) (a : Args) {s : State} (hs : s.inv) (hr : Runs (slidePlan false a) s) :
    ∃ t, slideDownOp offset a s = .next t ∧ Succeeds s t False ∧
      WroteElems s t a.vd (sewb a.cfg.sew) (Touched s a.me) fun k =>
        if k + offset < vlmax s.params a.cfg then opL s a.vs2 (sewb a.cfg.sew) (k + offset) else 0 := by
  have hfit : FitsAll s a.cfg := fitsAll hr
  obtain ⟨h2, h3⟩ := slide_aligned hr.2.1
  obtain ⟨t, ht, hsat, hw⟩ := slideOp_done false s.port.vstart a
    (fun m i => if i + offset < vlmax s.params a.cfg then readElem s.params.vlenb m a.vs2 (i + offset) (sewb a.cfg.sew)
      else 0) hs hr (Nat.le_refl _) (by
    intro i hlo hi m' ha
    by_cases hj : i + offset < vlmax s.params a.cfg
    · simp only [hj, if_true]
      exact readElem_apart (apart_own h2 h3 (Nat.le_add_right i offset) (fits_own hr.1.1 hj) (hfit.below hi)) ha
    · simp only [hj, if_false])
  exact ⟨t, ht, hsat, wroteElems_start hw⟩

/-- Slide-up by one (R265). -/
theorem slide1UpOp_done (a : Args) {s : State} (hs : s.inv) (hr : Runs (slidePlan true a) s) :
    ∃ t, slide1UpOp a s = .next t ∧ Succeeds s t False ∧
      WroteElems s t a.vd (sewb a.cfg.sew) (Touched s a.me) fun k =>
        if k = 0 then scalarAt s (8 * sewb a.cfg.sew) else opL s a.vs2 (sewb a.cfg.sew) (k - 1) := by
  have hfit : FitsAll s a.cfg := fitsAll hr
  have hd := slideUp_disjoint hr.2.1 hr.2.2
  obtain ⟨t, ht, hsat, hw⟩ := slideOp_done true s.port.vstart a
    (fun m i => if i = 0 then scalarAt s (8 * sewb a.cfg.sew)
      else readElem s.params.vlenb m a.vs2 (i - 1) (sewb a.cfg.sew)) hs hr (Nat.le_refl _) (by
    intro i hlo hi m' ha
    by_cases hi0 : i = 0
    · simp only [hi0, if_true]
    · simp only [hi0, if_false]
      exact readElem_apart (apart_disjoint hd (hfit (i - 1) (by omega)).1 (hfit.below hi)) ha)
  exact ⟨t, ht, hsat, wroteElems_start hw⟩

/-- Slide-down by one (R266). -/
theorem slide1DownOp_done (a : Args) {s : State} (hs : s.inv) (hr : Runs (slidePlan false a) s) :
    ∃ t, slide1DownOp a s = .next t ∧ Succeeds s t False ∧
      WroteElems s t a.vd (sewb a.cfg.sew) (Touched s a.me) fun k =>
        if k + 1 = s.port.vl then scalarAt s (8 * sewb a.cfg.sew) else opL s a.vs2 (sewb a.cfg.sew) (k + 1) := by
  have hfit : FitsAll s a.cfg := fitsAll hr
  obtain ⟨h2, h3⟩ := slide_aligned hr.2.1
  obtain ⟨t, ht, hsat, hw⟩ := slideOp_done false s.port.vstart a
    (fun m i => if i + 1 = s.port.vl then scalarAt s (8 * sewb a.cfg.sew)
      else readElem s.params.vlenb m a.vs2 (i + 1) (sewb a.cfg.sew)) hs hr (Nat.le_refl _) (by
    intro i hlo hi m' ha
    by_cases hi1 : i + 1 = s.port.vl
    · simp only [hi1, if_true]
    · simp only [hi1, if_false]
      exact readElem_apart (apart_own h2 h3 (Nat.le_succ i) (hfit (i + 1) (by omega)).1 (hfit.below hi)) ha)
  exact ⟨t, ht, hsat, wroteElems_start hw⟩

end Sys2Proof.Machine
end

