-- ==== Sys2Proof/Laws/Performs.lean ====
section
/-! SUPPORT. The laws of the shared operations in the terms of Safety: what an instruction that is one of them performs, and
that only what its function does at the four element widths matters. -/

namespace Sys2Proof.Machine

/-- The widths an element can have, in bits (R42). -/
theorem width_mem (c : Cfg) : 8 * sewb c.sew ∈ [8, 16, 32, 64] := by cases c.sew <;> decide

/-- The failing half of `Performs` holds of every request (R303). -/
theorem performs_of {i : Instr} {p : Plan} {post : State → State → Prop} (body : State → Memory → Memory × Bool)
    (hx : ∀ s, exec i s = runRequest p (body s) s)
    (hr : ∀ s : State, s.inv → Runs p s → ∃ t, exec i s = .next t ∧ post s t) : Performs i p post := by
  intro s hs
  refine ⟨hr s hs, fun ha hv => ?_⟩
  rw [hx s, runRequest_fails ha hv]
  rfl

/-- What a request performs, weakened to what follows from it. -/
theorem Performs.mono {i : Instr} {p : Plan} {post post' : State → State → Prop} (h : Performs i p post)
    (hp : ∀ s t, Runs p s → post s t → post' s t) : Performs i p post' := by
  intro s hs
  refine ⟨fun hr => ?_, (h s hs).2⟩
  obtain ⟨t, ht, hpost⟩ := (h s hs).1 hr
  exact ⟨t, ht, hp s t hr hpost⟩

/-- Written elements may be described by any values equal to theirs. -/
theorem WroteElems.congr {s t : State} {vd : VReg} {w : Nat} {wr : Nat → Prop} {val val' : Nat → BitVec (8 * w)}
    (h : WroteElems s t vd w wr val) (hv : ∀ i, wr i → val i = val' i) : WroteElems s t vd w wr val' :=
  ⟨fun i hi => (h.1 i hi).trans (hv i hi), h.2⟩

/-- Written bits may be described by any values equal to theirs. -/
theorem WroteBits.congr {s t : State} {vd : VReg} {wr : Nat → Prop} {val val' : Nat → Bool}
    (h : WroteBits s t vd wr val) (hv : ∀ i, wr i → val i = val' i) : WroteBits s t vd wr val' :=
  ⟨fun i hi => (h.1 i hi).trans (hv i hi), h.2⟩

theorem plainOp_performs {i : Instr} {a : Args} {f : (W : Nat) → BitVec W → BitVec W → BitVec W}
    (hx : ∀ s, exec i s = plainOp f a s) : PerformsSame i a (fun W x y _ => f W x y) :=
  performs_of _ hx fun s hs hr => by
    obtain ⟨t, ht, hsat, hw⟩ := sameOp_done (fun W x y _ => (f W x y, false)) a hs hr
    exact ⟨t, (hx s).trans ht, hsat.noSat, hw⟩

theorem macOp_performs {i : Instr} {a : Args} {f : (W : Nat) → BitVec W → BitVec W → BitVec W → BitVec W}
    (hx : ∀ s, exec i s = macOp f a s) : PerformsSame i a f :=
  performs_of _ hx fun s hs hr => by
    obtain ⟨t, ht, hsat, hw⟩ := sameOp_done (fun W x y d => (f W x y d, false)) a hs hr
    exact ⟨t, (hx s).trans ht, hsat.noSat, hw⟩

theorem satOp_performs {i : Instr} {a : Args} {f : (W : Nat) → BitVec W → BitVec W → BitVec W × Bool}
    (hx : ∀ s, exec i s = satOp f a s) : PerformsSat i a (fun W x y => (f W x y).1) (fun W x y => (f W x y).2 = true) :=
  performs_of _ hx fun s hs hr => by
    obtain ⟨t, ht, hsat, hw⟩ := sameOp_done (fun W x y _ => f W x y) a hs hr
    exact ⟨t, (hx s).trans ht, hsat, hw⟩

theorem wideMacOp_performs {i : Instr} {a : Args} {f : (W V : Nat) → BitVec W → BitVec W → BitVec V → BitVec V}
    (hx : ∀ s, exec i s = wideMacOp f a s) : PerformsWide i a f :=
  performs_of _ hx fun s hs hr => by
    obtain ⟨t, ht, h⟩ := wideMacOp_done f a hs hr
    exact ⟨t, (hx s).trans ht, h⟩

theorem wideOp_performs {i : Instr} {a : Args} {f : (W V : Nat) → BitVec W → BitVec W → BitVec V}
    (hx : ∀ s, exec i s = wideOp f a s) : PerformsWide i a (fun W V x y _ => f W V x y) :=
  wideMacOp_performs hx

theorem narrowOp_performs {i : Instr} {a : Args} {f : (V W : Nat) → BitVec V → BitVec W → BitVec W}
    (hx : ∀ s, exec i s = narrowOp f a s) : PerformsNarrow i a f :=
  performs_of _ hx fun s hs hr => by
    obtain ⟨t, ht, h⟩ := narrowOp_done f a hs hr
    exact ⟨t, (hx s).trans ht, h⟩

theorem extOp_performs {i : Instr} {k : ExtFactor} {o : OpExt} {f : (V W : Nat) → BitVec V → BitVec W}
    (hx : ∀ s, exec i s = extOp k f o s) : PerformsExt i k o f :=
  performs_of _ hx fun s hs hr => by
    obtain ⟨t, ht, h⟩ := extOp_done k f o hs hr
    exact ⟨t, (hx s).trans ht, h⟩

theorem compareOp_performs {i : Instr} {a : Args} {p : (W : Nat) → BitVec W → BitVec W → Bool}
    (hx : ∀ s, exec i s = compareOp p a s) : PerformsCompare i a p :=
  performs_of _ hx fun s hs hr => by
    obtain ⟨t, ht, h⟩ := compareOp_done p a hs hr
    exact ⟨t, (hx s).trans ht, h⟩

theorem carryProducerOp_performs {i : Instr} {a : Args} {p : (W : Nat) → BitVec W → BitVec W → Bool → Bool}
    (hx : ∀ s, exec i s = carryProducerOp p a s) : PerformsProducer i a (fun W x y c => p W x y (decide (c = 1))) :=
  performs_of _ hx fun s hs hr => by
    obtain ⟨t, ht, hsat, hw⟩ := carryProducerOp_done p a hs hr
    refine ⟨t, (hx s).trans ht, hsat, hw.congr fun k _ => ?_⟩
    have e : (a.me && bitV0 s k) = decide ((if a.me = true ∧ bitV0 s k = true then 1 else 0) = 1) := by
      cases a.me <;> cases bitV0 s k <;> rfl
    rw [e]

theorem carryInOp_performs {i : Instr} {a : Args} {f : (W : Nat) → BitVec W → BitVec W → Bool → BitVec W}
    (hx : ∀ s, exec i s = carryInOp f a s) : PerformsCarry i a InLoop (fun W x y c => f W x y (decide (c = 1))) :=
  performs_of _ hx fun s hs hr => by
    obtain ⟨t, ht, hsat, hw⟩ := carryInOp_done f a hs hr
    refine ⟨t, (hx s).trans ht, hsat, hw.congr fun k _ => ?_⟩
    have e : bitV0 s k = decide ((if bitV0 s k = true then 1 else 0) = 1) := by cases bitV0 s k <;> rfl
    exact congrArg _ e

theorem mergeOp_performs {i : Instr} {a : Args} {f : (W : Nat) → BitVec W → BitVec W → Bool → BitVec W}
    (hx : ∀ s, exec i s = mergeOp f a s) :
    PerformsCarry i a (fun s k => k < s.port.vl) (fun W x y c => f W x y (decide (c = 1))) :=
  performs_of _ hx fun s hs hr => by
    obtain ⟨t, ht, hsat, hw⟩ := mergeOp_done f a hs hr
    refine ⟨t, (hx s).trans ht, hsat, hw.congr fun k _ => ?_⟩
    have e : bitV0 s k = decide ((if bitV0 s k = true then 1 else 0) = 1) := by cases bitV0 s k <;> rfl
    exact congrArg _ e

theorem moveOp_performs {i : Instr} {a : MoveArgs} (hx : ∀ s, exec i s = moveOp a s) : PerformsMove i a :=
  performs_of _ hx fun s hs hr => by
    obtain ⟨t, ht, h⟩ := moveOp_done a hs hr
    exact ⟨t, (hx s).trans ht, h⟩

/-- Every index is at or above 0. -/
theorem wroteElems_zero {s t : State} {vd : VReg} {w : Nat} {me : Bool} {val : Nat → BitVec (8 * w)}
    (h : WroteElems s t vd w (Touched s me) val) : WroteElems s t vd w (fun k => Touched s me k ∧ 0 ≤ k) val := by
  have e : (fun k => Touched s me k ∧ 0 ≤ k) = Touched s me := by
    funext k; exact propext ⟨fun h => h.1, fun h => ⟨h, Nat.zero_le k⟩⟩
  rw [e]; exact h

theorem slideUpOp_performs {i : Instr} {a : Args} {offset : State → Nat}
    (hx : ∀ s, exec i s = slideUpOp (offset s) a s) :
    PerformsSlide i true a offset (fun s k => opL s a.vs2 (sewb a.cfg.sew) (k - offset s)) :=
  performs_of _ hx fun s hs hr => by
    obtain ⟨t, ht, h⟩ := slideUpOp_done (offset s) a hs hr
    exact ⟨t, (hx s).trans ht, h⟩

theorem slideDownOp_performs {i : Instr} {a : Args} {offset : State → Nat}
    (hx : ∀ s, exec i s = slideDownOp (offset s) a s) :
    PerformsSlide i false a (fun _ => 0) (fun s k =>
      if k + offset s < vlmax s.params a.cfg then opL s a.vs2 (sewb a.cfg.sew) (k + offset s) else 0) :=
  performs_of _ hx fun s hs hr => by
    obtain ⟨t, ht, hsat, hw⟩ := slideDownOp_done (offset s) a hs hr
    exact ⟨t, (hx s).trans ht, hsat, wroteElems_zero hw⟩

theorem slide1UpOp_performs {i : Instr} {a : Args} (hx : ∀ s, exec i s = slide1UpOp a s) :
    PerformsSlide i true a (fun _ => 0) (fun s k =>
      if k = 0 then scalarAt s (8 * sewb a.cfg.sew) else opL s a.vs2 (sewb a.cfg.sew) (k - 1)) :=
  performs_of _ hx fun s hs hr => by
    obtain ⟨t, ht, hsat, hw⟩ := slide1UpOp_done a hs hr
    exact ⟨t, (hx s).trans ht, hsat, wroteElems_zero hw⟩

theorem slide1DownOp_performs {i : Instr} {a : Args} (hx : ∀ s, exec i s = slide1DownOp a s) :
    PerformsSlide i false a (fun _ => 0) (fun s k =>
      if k + 1 = s.port.vl then scalarAt s (8 * sewb a.cfg.sew) else opL s a.vs2 (sewb a.cfg.sew) (k + 1)) :=
  performs_of _ hx fun s hs hr => by
    obtain ⟨t, ht, hsat, hw⟩ := slide1DownOp_done a hs hr
    exact ⟨t, (hx s).trans ht, hsat, wroteElems_zero hw⟩

/-! Only the element widths matter. -/

theorem PerformsSame.congr {i : Instr} {a : Args} {f g : (W : Nat) → BitVec W → BitVec W → BitVec W → BitVec W}
    (h : PerformsSame i a f) (e : ∀ W ∈ [8, 16, 32, 64], ∀ x y d : BitVec W, f W x y d = g W x y d) : PerformsSame i a g :=
  h.mono fun _ _ _ hp => ⟨hp.1, hp.2.congr fun _ _ => e _ (width_mem _) _ _ _⟩

theorem PerformsSat.congr {i : Instr} {a : Args} {f g : (W : Nat) → BitVec W → BitVec W → BitVec W}
    {p q : (W : Nat) → BitVec W → BitVec W → Prop} (h : PerformsSat i a f p)
    (e : ∀ W ∈ [8, 16, 32, 64], ∀ x y : BitVec W, f W x y = g W x y ∧ (p W x y ↔ q W x y)) : PerformsSat i a g q :=
  h.mono fun _ _ _ hp => ⟨hp.1.mono (exists_congr fun _ => and_congr_right fun _ => (e _ (width_mem _) _ _).2),
    hp.2.congr fun _ _ => (e _ (width_mem _) _ _).1⟩

theorem PerformsWide.congr {i : Instr} {a : Args} {f g : (W V : Nat) → BitVec W → BitVec W → BitVec V → BitVec V}
    (h : PerformsWide i a f)
    (e : ∀ W ∈ [8, 16, 32, 64], ∀ V, V = 2 * W → ∀ (x y : BitVec W) (d : BitVec V), f W V x y d = g W V x y d) :
    PerformsWide i a g :=
  h.mono fun _ _ _ hp => ⟨hp.1, hp.2.congr fun _ _ => e _ (width_mem _) _ (by ring) _ _ _⟩

theorem PerformsNarrow.congr {i : Instr} {a : Args} {f g : (V W : Nat) → BitVec V → BitVec W → BitVec W}
    (h : PerformsNarrow i a f)
    (e : ∀ W ∈ [8, 16, 32, 64], ∀ V, V = 2 * W → ∀ (x : BitVec V) (y : BitVec W), f V W x y = g V W x y) :
    PerformsNarrow i a g :=
  h.mono fun _ _ _ hp => ⟨hp.1, hp.2.congr fun _ _ => e _ (width_mem _) _ (by ring) _ _⟩

theorem PerformsExt.congr {i : Instr} {k : ExtFactor} {o : OpExt} {f g : (V W : Nat) → BitVec V → BitVec W}
    (h : PerformsExt i k o f) (e : ∀ V W (x : BitVec V), f V W x = g V W x) : PerformsExt i k o g :=
  h.mono fun _ _ _ hp => ⟨hp.1, hp.2.congr fun _ _ => e _ _ _⟩

theorem PerformsCompare.congr {i : Instr} {a : Args} {p q : (W : Nat) → BitVec W → BitVec W → Bool}
    (h : PerformsCompare i a p) (e : ∀ W ∈ [8, 16, 32, 64], ∀ x y : BitVec W, p W x y = q W x y) : PerformsCompare i a q :=
  h.mono fun _ _ _ hp => ⟨hp.1, hp.2.congr fun _ _ => e _ (width_mem _) _ _⟩

theorem PerformsProducer.congr {i : Instr} {a : Args} {p q : (W : Nat) → BitVec W → BitVec W → Nat → Bool}
    (h : PerformsProducer i a p)
    (e : ∀ W ∈ [8, 16, 32, 64], ∀ (x y : BitVec W) (c : Nat), c < 2 → p W x y c = q W x y c) : PerformsProducer i a q :=
  h.mono fun _ _ _ hp => ⟨hp.1, hp.2.congr fun _ _ => e _ (width_mem _) _ _ _ (by split <;> decide)⟩

theorem PerformsCarry.congr {i : Instr} {a : Args} {wr : State → Nat → Prop}
    {f g : (W : Nat) → BitVec W → BitVec W → Nat → BitVec W} (h : PerformsCarry i a wr f)
    (e : ∀ W ∈ [8, 16, 32, 64], ∀ (x y : BitVec W) (c : Nat), c < 2 → f W x y c = g W x y c) : PerformsCarry i a wr g :=
  h.mono fun _ _ _ hp => ⟨hp.1, hp.2.congr fun _ _ => e _ (width_mem _) _ _ _ (by split <;> decide)⟩

end Sys2Proof.Machine
end

