-- ==== Sys2Proof/Laws/State.lean ====
section
/-! SUPPORT. One lemma per field per update of State, so that no proof unfolds a record update. -/

namespace Sys2Proof.Machine

@[simp] theorem State.respond_params (s : State) (r : Response) : (s.respond r).params = s.params := rfl
@[simp] theorem State.respond_vrf (s : State) (r : Response) : (s.respond r).vrf = s.vrf := rfl
@[simp] theorem State.respond_port (s : State) (r : Response) : (s.respond r).port = s.port := rfl
@[simp] theorem State.respond_response (s : State) (r : Response) : (s.respond r).response = some r := rfl
@[simp] theorem State.respond_readData (s : State) (r : Response) : (s.respond r).readData = s.readData := rfl
@[simp] theorem State.respond_inputs (s : State) (r : Response) : (s.respond r).inputs = s.inputs := rfl
@[simp] theorem State.respond_freeCount (s : State) (r : Response) : (s.respond r).freeCount = s.freeCount := rfl

@[simp] theorem State.raise_params (s : State) (c : Status) : (s.raise c).params = s.params := rfl
@[simp] theorem State.raise_vrf (s : State) (c : Status) : (s.raise c).vrf = s.vrf := rfl
@[simp] theorem State.raise_port (s : State) (c : Status) : (s.raise c).port = s.port := rfl
@[simp] theorem State.raise_response (s : State) (c : Status) : (s.raise c).response = some ⟨c, false⟩ := rfl
@[simp] theorem State.raise_readData (s : State) (c : Status) : (s.raise c).readData = s.readData := rfl
@[simp] theorem State.raise_inputs (s : State) (c : Status) : (s.raise c).inputs = s.inputs := rfl
@[simp] theorem State.raise_freeCount (s : State) (c : Status) : (s.raise c).freeCount = s.freeCount := rfl

@[simp] theorem State.succeed_params (s : State) (out : Memory × Bool) : (s.succeed out).params = s.params := rfl
@[simp] theorem State.succeed_vrf (s : State) (out : Memory × Bool) : (s.succeed out).vrf = out.1 := rfl
@[simp] theorem State.succeed_port (s : State) (out : Memory × Bool) : (s.succeed out).port = s.port := rfl
@[simp] theorem State.succeed_response (s : State) (out : Memory × Bool) : (s.succeed out).response = some ⟨.noExcept, out.2⟩ := rfl
@[simp] theorem State.succeed_readData (s : State) (out : Memory × Bool) : (s.succeed out).readData = s.readData := rfl
@[simp] theorem State.succeed_inputs (s : State) (out : Memory × Bool) : (s.succeed out).inputs = s.inputs := rfl
@[simp] theorem State.succeed_freeCount (s : State) (out : Memory × Bool) : (s.succeed out).freeCount = s.freeCount := rfl

@[simp] theorem State.drive_params (s : State) (r : Request) : (s.drive r).params = s.params := rfl
@[simp] theorem State.drive_vrf (s : State) (r : Request) : (s.drive r).vrf = s.vrf := rfl
@[simp] theorem State.drive_port (s : State) (r : Request) : (s.drive r).port = r := rfl
@[simp] theorem State.drive_response (s : State) (r : Request) : (s.drive r).response = s.response := rfl
@[simp] theorem State.drive_readData (s : State) (r : Request) : (s.drive r).readData = s.readData := rfl
@[simp] theorem State.drive_inputs (s : State) (r : Request) : (s.drive r).inputs = s.inputs := rfl
@[simp] theorem State.drive_freeCount (s : State) (r : Request) : (s.drive r).freeCount = s.freeCount := rfl

@[simp] theorem State.resetBlock_params (s : State) : (s.resetBlock).params = s.params := rfl
@[simp] theorem State.resetBlock_vrf (s : State) : (s.resetBlock).vrf = s.vrf := rfl
@[simp] theorem State.resetBlock_port (s : State) : (s.resetBlock).port = s.port := rfl
@[simp] theorem State.resetBlock_response (s : State) : (s.resetBlock).response = none := rfl
@[simp] theorem State.resetBlock_readData (s : State) : (s.resetBlock).readData = none := rfl
@[simp] theorem State.resetBlock_inputs (s : State) : (s.resetBlock).inputs = s.inputs := rfl
@[simp] theorem State.resetBlock_freeCount (s : State) : (s.resetBlock).freeCount = s.freeCount := rfl

@[simp] theorem abandonGroup_params (p : Plan) (s : State) : (abandonGroup p s).params = s.params := rfl
@[simp] theorem abandonGroup_vrf (p : Plan) (s : State) :
    (abandonGroup p s).vrf =
      scramble s.freeCount (p.vd.val * s.params.vlenb) ((destMult p).nreg * s.params.vlenb) s.vrf := rfl
@[simp] theorem abandonGroup_port (p : Plan) (s : State) : (abandonGroup p s).port = s.port := rfl
@[simp] theorem abandonGroup_response (p : Plan) (s : State) : (abandonGroup p s).response = s.response := rfl
@[simp] theorem abandonGroup_readData (p : Plan) (s : State) : (abandonGroup p s).readData = s.readData := rfl
@[simp] theorem abandonGroup_inputs (p : Plan) (s : State) : (abandonGroup p s).inputs = s.inputs := rfl
@[simp] theorem abandonGroup_freeCount (p : Plan) (s : State) : (abandonGroup p s).freeCount = s.freeCount + 1 := rfl

@[simp] theorem State.withFetchWord_inputs (s : State) (n w : Nat) :
    (s.withFetchWord n w).inputs = .request ⟨descriptorOf n w, s.port.vl, s.port.vstart, s.port.rs1⟩ :: s.inputs := rfl
@[simp] theorem State.withFetchWord_params (s : State) (n w : Nat) : (s.withFetchWord n w).params = s.params := rfl
@[simp] theorem State.withFetchWord_vrf (s : State) (n w : Nat) : (s.withFetchWord n w).vrf = s.vrf := rfl
@[simp] theorem State.withFetchWord_port (s : State) (n w : Nat) : (s.withFetchWord n w).port = s.port := rfl
@[simp] theorem State.withFetchWord_response (s : State) (n w : Nat) : (s.withFetchWord n w).response = s.response := rfl
@[simp] theorem State.withFetchWord_readData (s : State) (n w : Nat) : (s.withFetchWord n w).readData = s.readData := rfl
@[simp] theorem State.withFetchWord_freeCount (s : State) (n w : Nat) : (s.withFetchWord n w).freeCount = s.freeCount := rfl

@[simp] theorem State.reset_params : State.reset.params = ⟨1, .x64⟩ := rfl
@[simp] theorem State.reset_vrf : State.reset.vrf = [] := rfl
@[simp] theorem State.reset_port : State.reset.port = ⟨0, 0, 0, 0⟩ := rfl
@[simp] theorem State.reset_response : State.reset.response = none := rfl
@[simp] theorem State.reset_readData : State.reset.readData = none := rfl
@[simp] theorem State.reset_inputs : State.reset.inputs = [] := rfl
@[simp] theorem State.reset_freeCount : State.reset.freeCount = 0 := rfl

end Sys2Proof.Machine
end

