-- ==== Sys2Proof/Tests/Slice0.lean ====
section
/-! SUPPORT. Checks of the model against words and results of the spec, refusals of ill-formed terms, and for each
statement with hypotheses a concrete state and operands that meet them. -/

namespace Sys2Proof.Tests

open Sys2Proof.Machine

/-! ## Decoding: words written out from the format of R70 and the operation map of R80 -/

/-- Each word decodes to the instruction beside it, also as a table word of 64 bits. -/
def decodesAll (l : List (Nat × Instr)) : Bool :=
  l.all fun p => decide (decodeTableWord 64 p.1 = some p.2)

theorem test_decode_integer_alu_1 : decodesAll [
    (0x0000000127D15400, .vaddVV ⟨true, 10, 17, 30, ⟨.e16, 2, 1, .rnu⟩⟩),
    (0x0000001149608900, .vaddVX ⟨false, 17, 11, ⟨.e32, 4, 1, .rne⟩⟩),
    (0x000000118F07C600, .vaddVI ⟨true, 24, 7, 24, ⟨.e64, 8, 1, .rne⟩⟩),
    (0x0000002210B2F801, .vsubVV ⟨false, 31, 18, 5, ⟨.e8, 1, 2, .rdn⟩⟩),
    (0x0000002416403501, .vsubVX ⟨true, 6, 18, ⟨.e16, 1, 4, .rdn⟩⟩),
    (0x000000381BE06902, .vrsubVX ⟨false, 13, 31, ⟨.e32, 1, 8, .rod⟩⟩),
    (0x000000311D93A602, .vrsubVI ⟨true, 20, 19, 12, ⟨.e64, 1, 1, .rod⟩⟩),
    (0x00000001233ED803, .vandVV ⟨false, 27, 30, 25, ⟨.e8, 2, 1, .rnu⟩⟩),
    (0x0000000144C01503, .vandVX ⟨true, 2, 6, ⟨.e16, 4, 1, .rnu⟩⟩),
    (0x000000118A744A03, .vandVI ⟨false, 9, 20, 19, ⟨.e32, 8, 1, .rne⟩⟩),
    (0x000000121C1F8404, .vorVV ⟨true, 16, 31, 0, ⟨.e64, 1, 2, .rne⟩⟩),
    (0x0000002411A0B904, .vorVX ⟨false, 23, 13, ⟨.e8, 1, 4, .rdn⟩⟩)] = true := by decide

theorem test_decode_integer_alu_2 : decodesAll [
    (0x000000281755F604, .vorVI ⟨true, 30, 21, 26, ⟨.e16, 1, 8, .rdn⟩⟩),
    (0x0000003118E02805, .vxorVV ⟨false, 5, 0, 7, ⟨.e32, 1, 1, .rod⟩⟩),
    (0x000000312E806505, .vxorVX ⟨true, 12, 20, ⟨.e64, 2, 1, .rod⟩⟩),
    (0x0000000140369A05, .vxorVI ⟨false, 19, 22, 1, ⟨.e8, 4, 1, .rnu⟩⟩),
    (0x0000000185C1D406, .vsllVV ⟨true, 26, 1, 14, ⟨.e16, 8, 1, .rnu⟩⟩),
    (0x000000121B600906, .vsllVX ⟨false, 1, 27, ⟨.e32, 1, 2, .rne⟩⟩),
    (0x000000141D174606, .vsllVI ⟨true, 8, 23, 8, ⟨.e64, 1, 4, .rne⟩⟩),
    (0x0000002812A27807, .vsrlVV ⟨false, 15, 2, 21, ⟨.e8, 1, 8, .rdn⟩⟩),
    (0x000000211440B507, .vsrlVX ⟨true, 22, 2, ⟨.e16, 1, 1, .rdn⟩⟩),
    (0x0000003129F8EA07, .vsrlVI ⟨false, 29, 24, 15, ⟨.e32, 2, 1, .rod⟩⟩),
    (0x000000314F832408, .vsraVV ⟨true, 4, 3, 28, ⟨.e64, 4, 1, .rod⟩⟩),
    (0x0000000181205908, .vsraVX ⟨false, 11, 9, ⟨.e8, 8, 1, .rnu⟩⟩)] = true := by decide

theorem test_decode_integer_alu_3 : decodesAll [
    (0x0000000216D99608, .vsraVI ⟨true, 18, 25, 22, ⟨.e16, 1, 2, .rnu⟩⟩),
    (0x000000141864C809, .vminuVV ⟨false, 25, 4, 3, ⟨.e32, 1, 4, .rne⟩⟩),
    (0x000000181E000509, .vminuVX ⟨true, 0, 16, ⟨.e64, 1, 8, .rne⟩⟩),
    (0x0000002113BA380A, .vminVV ⟨false, 7, 26, 29, ⟨.e8, 1, 1, .rdn⟩⟩),
    (0x000000212540750A, .vminVX ⟨true, 14, 10, ⟨.e16, 2, 1, .rdn⟩⟩),
    (0x000000314AF0A80B, .vmaxuVV ⟨false, 21, 16, 23, ⟨.e32, 4, 1, .rod⟩⟩),
    (0x000000318C80E50B, .vmaxuVX ⟨true, 28, 4, ⟨.e64, 8, 1, .rod⟩⟩),
    (0x000000021226180C, .vmaxVV ⟨false, 3, 6, 17, ⟨.e8, 1, 2, .rnu⟩⟩),
    (0x0000000417C0550C, .vmaxVX ⟨true, 10, 30, ⟨.e16, 1, 4, .rnu⟩⟩)] = true := by decide

theorem test_decode_extend_widen_narrow_1 : decodesAll [
    (0x0000001819608810, .vzextVf2 ⟨false, 17, 11, ⟨.e32, 1, 8, .rne⟩⟩),
    (0x000000111F00C411, .vzextVf4 ⟨true, 24, 24, ⟨.e64, 1, 1, .rne⟩⟩),
    (0x0000002120A0F812, .vzextVf8 ⟨false, 31, 5, ⟨.e8, 2, 1, .rdn⟩⟩),
    (0x0000002146403413, .vsextVf2 ⟨true, 6, 18, ⟨.e16, 4, 1, .rdn⟩⟩),
    (0x000000318BE06814, .vsextVf4 ⟨false, 13, 31, ⟨.e32, 8, 1, .rod⟩⟩),
    (0x000000321D80A415, .vsextVf8 ⟨true, 20, 12, ⟨.e64, 1, 2, .rod⟩⟩),
    (0x00000004133ED818, .vwadduVV ⟨false, 27, 30, 25, ⟨.e8, 1, 4, .rnu⟩⟩),
    (0x0000000814C01518, .vwadduVX ⟨true, 2, 6, ⟨.e16, 1, 8, .rnu⟩⟩),
    (0x000000111A744819, .vwaddVV ⟨false, 9, 20, 19, ⟨.e32, 1, 1, .rne⟩⟩),
    (0x000000112C008519, .vwaddVX ⟨true, 16, 0, ⟨.e64, 2, 1, .rne⟩⟩),
    (0x0000002141AAB81A, .vwsubuVV ⟨false, 23, 10, 13, ⟨.e8, 4, 1, .rdn⟩⟩),
    (0x000000218740F51A, .vwsubuVX ⟨true, 30, 26, ⟨.e16, 8, 1, .rdn⟩⟩)] = true := by decide

theorem test_decode_extend_widen_narrow_2 : decodesAll [
    (0x0000003218E0281B, .vwsubVV ⟨false, 5, 0, 7, ⟨.e32, 1, 2, .rod⟩⟩),
    (0x000000341E80651B, .vwsubVX ⟨true, 12, 20, ⟨.e64, 1, 4, .rod⟩⟩),
    (0x000000081036981C, .vnsrlWV ⟨false, 19, 22, 1, ⟨.e8, 1, 8, .rnu⟩⟩),
    (0x0000000115C0D51C, .vnsrlWX ⟨true, 26, 14, ⟨.e16, 1, 1, .rnu⟩⟩),
    (0x000000112B6C0A1C, .vnsrlWI ⟨false, 1, 12, 27, ⟨.e32, 2, 1, .rne⟩⟩),
    (0x000000114D17441D, .vnsraWV ⟨true, 8, 23, 8, ⟨.e64, 4, 1, .rne⟩⟩),
    (0x0000002182A0791D, .vnsraWX ⟨false, 15, 21, ⟨.e8, 8, 1, .rdn⟩⟩),
    (0x00000022144DB61D, .vnsraWI ⟨true, 22, 13, 2, ⟨.e16, 1, 2, .rdn⟩⟩)] = true := by decide

theorem test_decode_compare_carry_1 : decodesAll [
    (0x0000003419F8E820, .vmseqVV ⟨false, 29, 24, 15, ⟨.e32, 1, 4, .rod⟩⟩),
    (0x000000381F802520, .vmseqVX ⟨true, 4, 28, ⟨.e64, 1, 8, .rod⟩⟩),
    (0x00000001112E5A20, .vmseqVI ⟨false, 11, 14, 9, ⟨.e8, 1, 1, .rnu⟩⟩),
    (0x0000000126D99421, .vmsneVV ⟨true, 18, 25, 22, ⟨.e16, 2, 1, .rnu⟩⟩),
    (0x000000114860C921, .vmsneVX ⟨false, 25, 3, ⟨.e32, 4, 1, .rne⟩⟩),
    (0x000000118E0F0621, .vmsneVI ⟨true, 0, 15, 16, ⟨.e64, 8, 1, .rne⟩⟩),
    (0x0000002213BA3822, .vmsltuVV ⟨false, 7, 26, 29, ⟨.e8, 1, 2, .rdn⟩⟩),
    (0x0000002415407522, .vmsltuVX ⟨true, 14, 10, ⟨.e16, 1, 4, .rdn⟩⟩),
    (0x000000381AF0AA22, .vmsltuVI ⟨false, 21, 16, 23, ⟨.e32, 1, 8, .rod⟩⟩),
    (0x000000311C9BE423, .vmsltVV ⟨true, 28, 27, 4, ⟨.e64, 1, 1, .rod⟩⟩),
    (0x0000000122201923, .vmsltVX ⟨false, 3, 17, ⟨.e8, 2, 1, .rnu⟩⟩),
    (0x0000000147D15623, .vmsltVI ⟨true, 10, 17, 30, ⟨.e16, 4, 1, .rnu⟩⟩)] = true := by decide

theorem test_decode_compare_carry_2 : decodesAll [
    (0x00000011897C8824, .vmsleuVV ⟨false, 17, 28, 11, ⟨.e32, 8, 1, .rne⟩⟩),
    (0x000000121F00C524, .vmsleuVX ⟨true, 24, 24, ⟨.e64, 1, 2, .rne⟩⟩),
    (0x0000002410B2FA24, .vmsleuVI ⟨false, 31, 18, 5, ⟨.e8, 1, 4, .rdn⟩⟩),
    (0x00000028165D3425, .vmsleVV ⟨true, 6, 29, 18, ⟨.e16, 1, 8, .rdn⟩⟩),
    (0x000000311BE06925, .vmsleVX ⟨false, 13, 31, ⟨.e32, 1, 1, .rod⟩⟩),
    (0x000000312D93A625, .vmsleVI ⟨true, 20, 19, 12, ⟨.e64, 2, 1, .rod⟩⟩),
    (0x00000001433ED826, .vmsgtuVV ⟨false, 27, 30, 25, ⟨.e8, 4, 1, .rnu⟩⟩),
    (0x0000000184C01526, .vmsgtuVX ⟨true, 2, 6, ⟨.e16, 8, 1, .rnu⟩⟩),
    (0x000000121A744A26, .vmsgtuVI ⟨false, 9, 20, 19, ⟨.e32, 1, 2, .rne⟩⟩),
    (0x000000141C1F8427, .vmsgtVV ⟨true, 16, 31, 0, ⟨.e64, 1, 4, .rne⟩⟩),
    (0x0000002811A0B927, .vmsgtVX ⟨false, 23, 13, ⟨.e8, 1, 8, .rdn⟩⟩),
    (0x000000211755F627, .vmsgtVI ⟨true, 30, 21, 26, ⟨.e16, 1, 1, .rdn⟩⟩)] = true := by decide

theorem test_decode_compare_carry_3 : decodesAll [
    (0x0000003128E02828, .vmsgeuVV ⟨false, 5, 0, 7, ⟨.e32, 2, 1, .rod⟩⟩),
    (0x000000314E806528, .vmsgeuVX ⟨true, 12, 20, ⟨.e64, 4, 1, .rod⟩⟩),
    (0x0000000180369A28, .vmsgeuVI ⟨false, 19, 22, 1, ⟨.e8, 8, 1, .rnu⟩⟩),
    (0x0000000215C1D429, .vmsgeVV ⟨true, 26, 1, 14, ⟨.e16, 1, 2, .rnu⟩⟩),
    (0x000000141B600929, .vmsgeVX ⟨false, 1, 27, ⟨.e32, 1, 4, .rne⟩⟩),
    (0x000000181D174629, .vmsgeVI ⟨true, 8, 23, 8, ⟨.e64, 1, 8, .rne⟩⟩),
    (0x0000002112A27850, .vadcVVM ⟨false, 15, 2, 21, ⟨.e8, 1, 1, .rdn⟩⟩),
    (0x000000212440B550, .vadcVXM ⟨true, 22, 2, ⟨.e16, 2, 1, .rdn⟩⟩),
    (0x0000003149F8EA50, .vadcVIM ⟨false, 29, 24, 15, ⟨.e32, 4, 1, .rod⟩⟩),
    (0x000000318F832451, .vsbcVVM ⟨true, 4, 3, 28, ⟨.e64, 8, 1, .rod⟩⟩),
    (0x0000000211205951, .vsbcVXM ⟨false, 11, 9, ⟨.e8, 1, 2, .rnu⟩⟩),
    (0x0000000416D99052, .vmadcVV ⟨18, 25, 22, ⟨.e16, 1, 4, .rnu⟩⟩)] = true := by decide

theorem test_decode_compare_carry_4 : decodesAll [
    (0x000000181864CC52, .vmadcVVM ⟨25, 4, 3, ⟨.e32, 1, 8, .rne⟩⟩),
    (0x000000111E000152, .vmadcVX ⟨0, 16, ⟨.e64, 1, 1, .rne⟩⟩),
    (0x0000002123A03D52, .vmadcVXM ⟨7, 29, ⟨.e8, 2, 1, .rdn⟩⟩),
    (0x0000002145457252, .vmadcVI ⟨14, 5, 10, ⟨.e16, 4, 1, .rdn⟩⟩),
    (0x000000318AF0AE52, .vmadcVIM ⟨21, 16, 23, ⟨.e32, 8, 1, .rod⟩⟩),
    (0x000000321C9BE053, .vmsbcVV ⟨28, 27, 4, ⟨.e64, 1, 2, .rod⟩⟩),
    (0x0000000412261C53, .vmsbcVVM ⟨3, 6, 17, ⟨.e8, 1, 4, .rnu⟩⟩),
    (0x0000000817C05153, .vmsbcVX ⟨10, 30, ⟨.e16, 1, 8, .rnu⟩⟩),
    (0x0000001119608D53, .vmsbcVXM ⟨17, 11, ⟨.e32, 1, 1, .rne⟩⟩)] = true := by decide

theorem test_decode_multiply_divide_mac_1 : decodesAll [
    (0x000000112F07C430, .vmulVV ⟨true, 24, 7, 24, ⟨.e64, 2, 1, .rne⟩⟩),
    (0x0000002140A0F930, .vmulVX ⟨false, 31, 5, ⟨.e8, 4, 1, .rdn⟩⟩),
    (0x00000021865D3431, .vmulhVV ⟨true, 6, 29, 18, ⟨.e16, 8, 1, .rdn⟩⟩),
    (0x000000321BE06931, .vmulhVX ⟨false, 13, 31, ⟨.e32, 1, 2, .rod⟩⟩),
    (0x000000341D93A432, .vmulhuVV ⟨true, 20, 19, 12, ⟨.e64, 1, 4, .rod⟩⟩),
    (0x000000081320D932, .vmulhuVX ⟨false, 27, 25, ⟨.e8, 1, 8, .rnu⟩⟩),
    (0x0000000114C91433, .vmulhsuVV ⟨true, 2, 9, 6, ⟨.e16, 1, 1, .rnu⟩⟩),
    (0x000000112A604933, .vmulhsuVX ⟨false, 9, 19, ⟨.e32, 2, 1, .rne⟩⟩),
    (0x000000114C1F8434, .vdivuVV ⟨true, 16, 31, 0, ⟨.e64, 4, 1, .rne⟩⟩),
    (0x0000002181A0B934, .vdivuVX ⟨false, 23, 13, ⟨.e8, 8, 1, .rdn⟩⟩),
    (0x000000221755F435, .vdivVV ⟨true, 30, 21, 26, ⟨.e16, 1, 2, .rdn⟩⟩),
    (0x0000003418E02935, .vdivVX ⟨false, 5, 7, ⟨.e32, 1, 4, .rod⟩⟩)] = true := by decide

theorem test_decode_multiply_divide_mac_2 : decodesAll [
    (0x000000381E8B6436, .vremuVV ⟨true, 12, 11, 20, ⟨.e64, 1, 8, .rod⟩⟩),
    (0x0000000110209936, .vremuVX ⟨false, 19, 1, ⟨.e8, 1, 1, .rnu⟩⟩),
    (0x0000000125C1D437, .vremVV ⟨true, 26, 1, 14, ⟨.e16, 2, 1, .rnu⟩⟩),
    (0x000000114B600937, .vremVX ⟨false, 1, 27, ⟨.e32, 4, 1, .rne⟩⟩),
    (0x000000118D174438, .vwmuluVV ⟨true, 8, 23, 8, ⟨.e64, 8, 1, .rne⟩⟩),
    (0x0000002212A07938, .vwmuluVX ⟨false, 15, 21, ⟨.e8, 1, 2, .rdn⟩⟩),
    (0x00000024144DB439, .vwmulVV ⟨true, 22, 13, 2, ⟨.e16, 1, 4, .rdn⟩⟩),
    (0x0000003819E0E939, .vwmulVX ⟨false, 29, 15, ⟨.e32, 1, 8, .rod⟩⟩),
    (0x000000311F83243A, .vwmulsuVV ⟨true, 4, 3, 28, ⟨.e64, 1, 1, .rod⟩⟩),
    (0x000000012120593A, .vwmulsuVX ⟨false, 11, 9, ⟨.e8, 2, 1, .rnu⟩⟩),
    (0x0000000146D99440, .vmaccVV ⟨true, 18, 25, 22, ⟨.e16, 4, 1, .rnu⟩⟩),
    (0x000000118860C940, .vmaccVX ⟨false, 25, 3, ⟨.e32, 8, 1, .rne⟩⟩)] = true := by decide

theorem test_decode_multiply_divide_mac_3 : decodesAll [
    (0x000000121E0F0441, .vnmsacVV ⟨true, 0, 15, 16, ⟨.e64, 1, 2, .rne⟩⟩),
    (0x0000002413A03941, .vnmsacVX ⟨false, 7, 29, ⟨.e8, 1, 4, .rdn⟩⟩),
    (0x0000002815457442, .vmaddVV ⟨true, 14, 5, 10, ⟨.e16, 1, 8, .rdn⟩⟩),
    (0x000000311AE0A942, .vmaddVX ⟨false, 21, 23, ⟨.e32, 1, 1, .rod⟩⟩),
    (0x000000312C9BE443, .vnmsubVV ⟨true, 28, 27, 4, ⟨.e64, 2, 1, .rod⟩⟩),
    (0x0000000142201943, .vnmsubVX ⟨false, 3, 17, ⟨.e8, 4, 1, .rnu⟩⟩),
    (0x0000000187D15444, .vwmaccuVV ⟨true, 10, 17, 30, ⟨.e16, 8, 1, .rnu⟩⟩),
    (0x0000001219608944, .vwmaccuVX ⟨false, 17, 11, ⟨.e32, 1, 2, .rne⟩⟩),
    (0x000000141F07C445, .vwmaccVV ⟨true, 24, 7, 24, ⟨.e64, 1, 4, .rne⟩⟩),
    (0x0000002810A0F945, .vwmaccVX ⟨false, 31, 5, ⟨.e8, 1, 8, .rdn⟩⟩),
    (0x00000021165D3446, .vwmaccsuVV ⟨true, 6, 29, 18, ⟨.e16, 1, 1, .rdn⟩⟩),
    (0x000000312BE06946, .vwmaccsuVX ⟨false, 13, 31, ⟨.e32, 2, 1, .rod⟩⟩)] = true := by decide

theorem test_decode_multiply_divide_mac_4 : decodesAll [
    (0x000000314D80A547, .vwmaccusVX ⟨true, 20, 12, ⟨.e64, 4, 1, .rod⟩⟩)] = true := by decide

theorem test_decode_fixed_point_1 : decodesAll [
    (0x00000001833ED858, .vsadduVV ⟨false, 27, 30, 25, ⟨.e8, 8, 1, .rnu⟩⟩),
    (0x0000000214C01558, .vsadduVX ⟨true, 2, 6, ⟨.e16, 1, 2, .rnu⟩⟩),
    (0x000000141A744A58, .vsadduVI ⟨false, 9, 20, 19, ⟨.e32, 1, 4, .rne⟩⟩),
    (0x000000181C1F8459, .vsaddVV ⟨true, 16, 31, 0, ⟨.e64, 1, 8, .rne⟩⟩),
    (0x0000002111A0B959, .vsaddVX ⟨false, 23, 13, ⟨.e8, 1, 1, .rdn⟩⟩),
    (0x000000212755F659, .vsaddVI ⟨true, 30, 21, 26, ⟨.e16, 2, 1, .rdn⟩⟩),
    (0x0000003148E0285A, .vssubuVV ⟨false, 5, 0, 7, ⟨.e32, 4, 1, .rod⟩⟩),
    (0x000000318E80655A, .vssubuVX ⟨true, 12, 20, ⟨.e64, 8, 1, .rod⟩⟩),
    (0x000000021036985B, .vssubVV ⟨false, 19, 22, 1, ⟨.e8, 1, 2, .rnu⟩⟩),
    (0x0000000415C0D55B, .vssubVX ⟨true, 26, 14, ⟨.e16, 1, 4, .rnu⟩⟩),
    (0x000000181B6C085C, .vaadduVV ⟨false, 1, 12, 27, ⟨.e32, 1, 8, .rne⟩⟩),
    (0x000000111D00455C, .vaadduVX ⟨true, 8, 8, ⟨.e64, 1, 1, .rne⟩⟩)] = true := by decide

theorem test_decode_fixed_point_2 : decodesAll [
    (0x0000002122A2785D, .vaaddVV ⟨false, 15, 2, 21, ⟨.e8, 2, 1, .rdn⟩⟩),
    (0x000000214440B55D, .vaaddVX ⟨true, 22, 2, ⟨.e16, 4, 1, .rdn⟩⟩),
    (0x0000003189F8E85E, .vasubuVV ⟨false, 29, 24, 15, ⟨.e32, 8, 1, .rod⟩⟩),
    (0x000000321F80255E, .vasubuVX ⟨true, 4, 28, ⟨.e64, 1, 2, .rod⟩⟩),
    (0x00000004112E585F, .vasubVV ⟨false, 11, 14, 9, ⟨.e8, 1, 4, .rnu⟩⟩),
    (0x0000000816C0955F, .vasubVX ⟨true, 18, 22, ⟨.e16, 1, 8, .rnu⟩⟩)] = true := by decide

theorem test_decode_move_merge_slide : decodesAll [
    (0x000000111864C860, .vmergeVVM ⟨false, 25, 4, 3, ⟨.e32, 1, 1, .rne⟩⟩),
    (0x000000112E000560, .vmergeVXM ⟨true, 0, 16, ⟨.e64, 2, 1, .rne⟩⟩),
    (0x0000002143BA3A60, .vmergeVIM ⟨false, 7, 26, 29, ⟨.e8, 4, 1, .rdn⟩⟩),
    (0x0000002184057461, .vmvVV ⟨true, 14, 5, ⟨.e16, 8, 1, .rdn⟩⟩),
    (0x000000321800A961, .vmvVX ⟨false, 21, ⟨.e32, 1, 2, .rod⟩⟩),
    (0x000000341C1BE661, .vmvVI ⟨true, 28, 27, ⟨.e64, 1, 4, .rod⟩⟩),
    (0x0000000812201968, .vslideupVX ⟨false, 3, 17, ⟨.e8, 1, 8, .rnu⟩⟩),
    (0x0000000117D15668, .vslideupVI ⟨true, 10, 17, 30, ⟨.e16, 1, 1, .rnu⟩⟩),
    (0x0000001129608969, .vslidedownVX ⟨false, 17, 11, ⟨.e32, 2, 1, .rne⟩⟩),
    (0x000000114F07C669, .vslidedownVI ⟨true, 24, 7, 24, ⟨.e64, 4, 1, .rne⟩⟩),
    (0x0000002180A0F96A, .vslide1upVX ⟨false, 31, 5, ⟨.e8, 8, 1, .rdn⟩⟩),
    (0x000000221640356B, .vslide1downVX ⟨true, 6, 18, ⟨.e16, 1, 2, .rdn⟩⟩)] = true := by decide

/-- One word of each family written bit by bit: `vxrm`, `lmul_den`, `lmul_num`, `vsew`, `vs2`, `vs1`, `vd`, `me`, `form`, `op`
(the 26 bits above are 0). -/
theorem test_decode_bit_by_bit : decodesAll [
    (0b01_0010_0001_01_10101_01001_00101_1_10_00000110, .vsllVI ⟨true, 5, 9, 21, ⟨.e16, 1, 2, .rne⟩⟩),
    (0b11_0001_0100_10_00011_00000_11110_0_01_00011011, .vwsubVX ⟨false, 30, 3, ⟨.e32, 4, 1, .rod⟩⟩),
    (0b00_0001_1000_11_00001_10000_11111_1_00_01000000, .vmaccVV ⟨true, 31, 16, 1, ⟨.e64, 8, 1, .rnu⟩⟩),
    (0b10_1000_0001_00_00010_10100_01010_1_00_01010011, .vmsbcVVM ⟨10, 20, 2, ⟨.e8, 1, 8, .rdn⟩⟩),
    (0b00_0001_0010_10_01000_00000_10001_1_01_01101011, .vslide1downVX ⟨true, 17, 8, ⟨.e32, 2, 1, .rnu⟩⟩),
    (0b01_0100_0001_11_00011_00010_00001_0_00_01011011, .vssubVV ⟨false, 1, 2, 3, ⟨.e64, 1, 4, .rne⟩⟩)] = true := by decide

/-- Each word is rejected for the reason beside it (R82). -/
def rejectsAll (l : List (Nat × DecodeError)) : Bool :=
  l.all fun p => decide (decode (BitVec.ofNat 64 p.1) = .error p.2)

/-- Bit 38 and bit 63 set, form 3, pairs that the map does not list, non-zero `vs1` in form X and in an extension, non-zero
`vs2` in a move. -/
theorem test_decode_reserved : rejectsAll [
    (0x0000004118221800, .reservedBits), (0x8000000118221800, .reservedBits),
    (0x0000000118221B00, .reservedForm), (0x000000011822180D, .reservedOp), (0x00000001182218FF, .reservedOp),
    (0x0000000118221802, .reservedPair), (0x0000000118221A01, .reservedPair), (0x0000000118211947, .nonzeroVs1),
    (0x0000000118211900, .nonzeroVs1), (0x0000000118211810, .nonzeroVs1), (0x0000000118211861, .nonzeroVs2),
    (0x0000000118200961, .nonzeroVs2)] = true := by decide

/-- Fewer bits than a descriptor leave the upper fields zero; more than 64 bits are no descriptor. -/
theorem test_table_word :
    decodeTableWord 16 0xFFFF1800 = some (.vaddVV ⟨false, 3, 0, 0, ⟨.e8, 0, 0, .rnu⟩⟩) ∧
    decodeTableWord 72 (2 ^ 64) = none := by decide

/-! ## Well-formedness: one ill-formed term for each check (R84), and terms at the edge that pass -/

theorem test_wellFormed_refuses_multiplicity :
    (Instr.vaddVV ⟨false, 3, 1, 2, ⟨.e8, 0, 0, .rnu⟩⟩).configError = some .multiplicity ∧
    (Instr.vaddVV ⟨false, 3, 1, 2, ⟨.e8, 2, 2, .rnu⟩⟩).wellFormed = false ∧
    (Instr.vmvVI ⟨false, 0, 1, ⟨.e64, 1, 3, .rnu⟩⟩).wellFormed = false := by decide

theorem test_wellFormed_refuses_elementWidth :
    (Instr.vwaddVV ⟨false, 4, 1, 2, ⟨.e64, 1, 1, .rnu⟩⟩).configError = some .elementWidth ∧
    (Instr.vnsrlWI ⟨false, 4, 1, 2, ⟨.e64, 1, 1, .rnu⟩⟩).wellFormed = false ∧
    (Instr.vzextVf8 ⟨false, 4, 2, ⟨.e32, 1, 1, .rnu⟩⟩).wellFormed = false := by decide

theorem test_wellFormed_refuses_effectiveMultiplicity :
    (Instr.vwaddVV ⟨false, 8, 16, 24, ⟨.e8, 8, 1, .rnu⟩⟩).configError = some .effectiveMultiplicity ∧
    (Instr.vzextVf4 ⟨false, 4, 2, ⟨.e32, 1, 4, .rnu⟩⟩).wellFormed = false := by decide

theorem test_wellFormed_accepts :
    (Instr.vwaddVV ⟨false, 8, 16, 20, ⟨.e32, 4, 1, .rnu⟩⟩).wellFormed = true ∧
    (Instr.vzextVf4 ⟨false, 4, 2, ⟨.e32, 1, 2, .rnu⟩⟩).wellFormed = true ∧
    (Instr.vmsgeVI ⟨true, 0, 1, 8, ⟨.e64, 8, 1, .rnu⟩⟩).wellFormed = true := by decide

/-! ## One step each: requests of 95_test_vectors.md, VLEN = 128, with the bytes and responses it lists -/

/-- A register file from the bytes of some registers; every other byte is zero. -/
def fileWith (regs : List (Nat × List Nat)) : Memory :=
  regs.foldl (fun m rb => Memory.writeBytes m (rb.1 * 16) (rb.2.map (BitVec.ofNat 8))) []

/-- A state whose host next presents this request. -/
def stateWith (xl : XLen) (regs : List (Nat × List Nat)) (w vl vs rs1 : Nat) : State :=
  { State.reset with
    params := ⟨1, xl⟩
    vrf := fileWith regs
    inputs := [.request ⟨BitVec.ofNat 64 w, vl, vs, BitVec.ofNat 64 rs1⟩] }

/-- The step answers a next state with this response, and these registers start with these bytes. -/
def answers (s : State) (st : Status) (sat : Bool) (after : List (Nat × List Nat)) : Bool :=
  match step s with
  | .next t => decide (t.response = some ⟨st, sat⟩) &&
      after.all fun rb => decide (Memory.readBytes t.vrf (rb.1 * 16) rb.2.length = rb.2.map (BitVec.ofNat 8))
  | .fault _ | .refused _ => false

/-- The step answers this status with `SAT = 0` and leaves the register file as it was. -/
def reports (s : State) (st : Status) : Bool :=
  match step s with
  | .next t => decide (t.response = some ⟨st, false⟩) && decide (t.vrf = s.vrf)
  | .fault _ | .refused _ => false

/-- The step is refused for this reason. -/
def refuses (s : State) (r : Refusal) : Bool :=
  match step s with
  | .refused r' => decide (r' = r)
  | .next _ | .fault _ => false

/-- Vector S1. -/
theorem test_vadd_vv : answers (stateWith .x64 [(1, [10, 0, 0, 0, 20, 0, 0, 0, 30, 0, 0, 0, 40, 0, 0, 0]), (2, [1, 0,
      0, 0, 2, 0, 0, 0, 3, 0, 0, 0, 4, 0, 0, 0]), (3, [170, 170, 170, 170, 170, 170, 170, 170, 170, 170, 170, 170,
      170, 170, 170, 170])]
    0x0000000118411800 4 0 0x0) .noExcept false [(3, [11, 0, 0, 0, 22, 0, 0, 0, 33, 0, 0, 0, 44, 0, 0, 0])] = true :=
      by decide

/-- Vector A-vsub. -/
theorem test_vsub_vv : answers (stateWith .x64 [(1, [2, 1, 128, 255]), (2, [1, 255, 128, 127]), (3, [170, 170, 170,
      170])]
    0x0000000110411801 4 0 0x0) .noExcept false [(3, [255, 254, 0, 128])] = true := by decide

/-- Vector S3. -/
theorem test_vrsub_vi : answers (stateWith .x64 [(2, [10, 0, 0, 0]), (3, [170, 170, 170, 170])]
    0x0000000118431A02 1 0 0x0) .noExcept false [(3, [249, 255, 255, 255])] = true := by decide

/-- Vector A-vand. -/
theorem test_vand_vv : answers (stateWith .x64 [(1, [2, 1, 128, 255]), (2, [1, 255, 128, 127]), (3, [170, 170, 170,
      170])]
    0x0000000110411803 4 0 0x0) .noExcept false [(3, [0, 1, 128, 127])] = true := by decide

/-- Vector A-vor. -/
theorem test_vor_vv : answers (stateWith .x64 [(1, [2, 1, 128, 255]), (2, [1, 255, 128, 127]), (3, [170, 170, 170,
      170])]
    0x0000000110411804 4 0 0x0) .noExcept false [(3, [3, 255, 128, 255])] = true := by decide

/-- Vector A-vxor. -/
theorem test_vxor_vv : answers (stateWith .x64 [(1, [2, 1, 128, 255]), (2, [1, 255, 128, 127]), (3, [170, 170, 170,
      170])]
    0x0000000110411805 4 0 0x0) .noExcept false [(3, [3, 254, 0, 128])] = true := by decide

/-- Vector A-vsll. -/
theorem test_vsll_vv : answers (stateWith .x64 [(1, [0, 1, 7, 9]), (2, [129, 129, 129, 129]), (3, [170, 170, 170, 170])]
    0x0000000110411806 4 0 0x0) .noExcept false [(3, [129, 2, 128, 2])] = true := by decide

/-- Vector A-vsrl. -/
theorem test_vsrl_vv : answers (stateWith .x64 [(1, [0, 1, 7, 9]), (2, [129, 129, 129, 129]), (3, [170, 170, 170, 170])]
    0x0000000110411807 4 0 0x0) .noExcept false [(3, [129, 64, 1, 64])] = true := by decide

/-- Vector A-vsra. -/
theorem test_vsra_vv : answers (stateWith .x64 [(1, [0, 1, 7, 9]), (2, [129, 129, 129, 129]), (3, [170, 170, 170, 170])]
    0x0000000110411808 4 0 0x0) .noExcept false [(3, [129, 192, 255, 192])] = true := by decide

/-- Vector A-vminu. -/
theorem test_vminu_vv : answers (stateWith .x64 [(1, [2, 1, 128, 255]), (2, [1, 255, 128, 127]), (3, [170, 170, 170,
      170])]
    0x0000000110411809 4 0 0x0) .noExcept false [(3, [1, 1, 128, 127])] = true := by decide

/-- Vector A-vmin. -/
theorem test_vmin_vv : answers (stateWith .x64 [(1, [2, 1, 128, 255]), (2, [1, 255, 128, 127]), (3, [170, 170, 170,
      170])]
    0x000000011041180A 4 0 0x0) .noExcept false [(3, [1, 255, 128, 255])] = true := by decide

/-- Vector A-vmaxu. -/
theorem test_vmaxu_vv : answers (stateWith .x64 [(1, [2, 1, 128, 255]), (2, [1, 255, 128, 127]), (3, [170, 170, 170,
      170])]
    0x000000011041180B 4 0 0x0) .noExcept false [(3, [2, 255, 128, 255])] = true := by decide

/-- Vector A-vmax. -/
theorem test_vmax_vv : answers (stateWith .x64 [(1, [2, 1, 128, 255]), (2, [1, 255, 128, 127]), (3, [170, 170, 170,
      170])]
    0x000000011041180C 4 0 0x0) .noExcept false [(3, [2, 1, 128, 127])] = true := by decide

/-- Vector W-vzext2. -/
theorem test_vzext_vf2 : answers (stateWith .x64 [(2, [1, 127, 128, 255]), (4, [170, 170, 170, 170, 170, 170, 170,
      170])]
    0x0000000114402010 4 0 0x0) .noExcept false [(4, [1, 0, 127, 0, 128, 0, 255, 0])] = true := by decide

/-- Vector W-vzext4. -/
theorem test_vzext_vf4 : answers (stateWith .x64 [(2, [1, 127, 128, 255]), (4, [170, 170, 170, 170, 170, 170, 170,
      170, 170, 170, 170, 170, 170, 170, 170, 170])]
    0x0000000118402011 4 0 0x0) .noExcept false [(4, [1, 0, 0, 0, 127, 0, 0, 0, 128, 0, 0, 0, 255, 0, 0, 0])] = true
      := by decide

/-- Vector W-vzext8. -/
theorem test_vzext_vf8 : answers (stateWith .x64 [(2, [127, 128]), (4, [170, 170, 170, 170, 170, 170, 170, 170, 170,
      170, 170, 170, 170, 170, 170, 170])]
    0x000000011C402012 2 0 0x0) .noExcept false [(4, [127, 0, 0, 0, 0, 0, 0, 0, 128, 0, 0, 0, 0, 0, 0, 0])] = true :=
      by decide

/-- Vector W-vsext2. -/
theorem test_vsext_vf2 : answers (stateWith .x64 [(2, [1, 127, 128, 255]), (4, [170, 170, 170, 170, 170, 170, 170,
      170])]
    0x0000000114402013 4 0 0x0) .noExcept false [(4, [1, 0, 127, 0, 128, 255, 255, 255])] = true := by decide

/-- Vector W-vsext4. -/
theorem test_vsext_vf4 : answers (stateWith .x64 [(2, [1, 127, 128, 255]), (4, [170, 170, 170, 170, 170, 170, 170,
      170, 170, 170, 170, 170, 170, 170, 170, 170])]
    0x0000000118402014 4 0 0x0) .noExcept false [(4, [1, 0, 0, 0, 127, 0, 0, 0, 128, 255, 255, 255, 255, 255, 255,
      255])] = true := by decide

/-- Vector W-vsext8. -/
theorem test_vsext_vf8 : answers (stateWith .x64 [(2, [127, 128]), (4, [170, 170, 170, 170, 170, 170, 170, 170, 170,
      170, 170, 170, 170, 170, 170, 170])]
    0x000000011C402015 2 0 0x0) .noExcept false [(4, [127, 0, 0, 0, 0, 0, 0, 0, 128, 255, 255, 255, 255, 255, 255,
      255])] = true := by decide

/-- Vector W-vwaddu. -/
theorem test_vwaddu_vv : answers (stateWith .x64 [(1, [255, 128, 128, 2]), (2, [255, 128, 127, 1]), (4, [170, 170,
      170, 170, 170, 170, 170, 170])]
    0x0000000210412018 4 0 0x0) .noExcept false [(4, [254, 1, 0, 1, 255, 0, 3, 0])] = true := by decide

/-- Vector S7-a. -/
theorem test_vwadd_vv : answers (stateWith .x64 [(4, [65, 0, 0, 0, 66, 0, 0, 0, 255, 255, 255, 255, 0, 0, 0, 128]),
      (8, [170, 170, 170, 170, 170, 170, 170, 170, 170, 170, 170, 170, 170, 170, 170, 170]), (9, [145, 0, 0, 0, 146,
      0, 0, 0, 255, 255, 255, 255, 0, 0, 0, 128])]
    0x0000000119244019 4 0 0x0) .noExcept false [(8, [210, 0, 0, 0, 0, 0, 0, 0, 212, 0, 0, 0, 0, 0, 0, 0]), (9, [254,
      255, 255, 255, 255, 255, 255, 255, 0, 0, 0, 0, 255, 255, 255, 255])] = true := by decide

/-- Vector W-vwsubu. -/
theorem test_vwsubu_vv : answers (stateWith .x64 [(1, [255, 128, 128, 2]), (2, [255, 128, 127, 1]), (4, [170, 170,
      170, 170, 170, 170, 170, 170])]
    0x000000021041201A 4 0 0x0) .noExcept false [(4, [0, 0, 0, 0, 255, 255, 255, 255])] = true := by decide

/-- Vector W-vwsub. -/
theorem test_vwsub_vv : answers (stateWith .x64 [(1, [255, 128, 128, 2]), (2, [255, 128, 127, 1]), (4, [170, 170, 170,
      170, 170, 170, 170, 170])]
    0x000000021041201B 4 0 0x0) .noExcept false [(4, [0, 0, 0, 0, 255, 0, 255, 255])] = true := by decide

/-- Vector W-vnsrl. -/
theorem test_vnsrl_wv : answers (stateWith .x64 [(1, [4, 15, 8, 20]), (4, [52, 18, 0, 128, 255, 255, 240, 0]), (6,
      [170, 170, 170, 170])]
    0x000000021081301C 4 0 0x0) .noExcept false [(6, [35, 1, 255, 15])] = true := by decide

/-- Vector W-vnsra. -/
theorem test_vnsra_wv : answers (stateWith .x64 [(1, [4, 15, 8, 20]), (4, [52, 18, 0, 128, 255, 255, 240, 0]), (6,
      [170, 170, 170, 170])]
    0x000000021081301D 4 0 0x0) .noExcept false [(6, [35, 255, 255, 15])] = true := by decide

/-- Vector L-4. -/
theorem test_vmseq_vi : answers (stateWith .x64 [(1, [170, 170, 170]), (2, [0, 1, 0, 1, 1, 0, 0, 0, 0, 0, 0, 0, 0, 0,
      1, 1])]
    0x0000000110410A20 16 0 0x0) .noExcept false [(1, [26, 192, 170])] = true := by decide

/-- Vector C-vmsne. -/
theorem test_vmsne_vv : answers (stateWith .x64 [(1, [2, 1, 128, 5]), (2, [1, 255, 128, 5]), (4, [240, 170])]
    0x0000000110412021 4 0 0x0) .noExcept false [(4, [243, 170])] = true := by decide

/-- Vector C-vmsltu. -/
theorem test_vmsltu_vv : answers (stateWith .x64 [(1, [2, 1, 128, 5]), (2, [1, 255, 128, 5]), (4, [240, 170])]
    0x0000000110412022 4 0 0x0) .noExcept false [(4, [241, 170])] = true := by decide

/-- Vector C-vmslt. -/
theorem test_vmslt_vv : answers (stateWith .x64 [(1, [2, 1, 128, 5]), (2, [1, 255, 128, 5]), (4, [240, 170])]
    0x0000000110412023 4 0 0x0) .noExcept false [(4, [243, 170])] = true := by decide

/-- Vector C-vmsleu. -/
theorem test_vmsleu_vv : answers (stateWith .x64 [(1, [2, 1, 128, 5]), (2, [1, 255, 128, 5]), (4, [240, 170])]
    0x0000000110412024 4 0 0x0) .noExcept false [(4, [253, 170])] = true := by decide

/-- Vector C-vmsle. -/
theorem test_vmsle_vv : answers (stateWith .x64 [(1, [2, 1, 128, 5]), (2, [1, 255, 128, 5]), (4, [240, 170])]
    0x0000000110412025 4 0 0x0) .noExcept false [(4, [255, 170])] = true := by decide

/-- Vector C-vmsgtu. -/
theorem test_vmsgtu_vv : answers (stateWith .x64 [(1, [2, 1, 128, 5]), (2, [1, 255, 128, 5]), (4, [240, 170])]
    0x0000000110412026 4 0 0x0) .noExcept false [(4, [242, 170])] = true := by decide

/-- Vector C-vmsgt. -/
theorem test_vmsgt_vv : answers (stateWith .x64 [(1, [2, 1, 128, 5]), (2, [1, 255, 128, 5]), (4, [240, 170])]
    0x0000000110412027 4 0 0x0) .noExcept false [(4, [240, 170])] = true := by decide

/-- Vector C-vmsgeu. -/
theorem test_vmsgeu_vv : answers (stateWith .x64 [(1, [2, 1, 128, 5]), (2, [1, 255, 128, 5]), (4, [240, 170])]
    0x0000000110412028 4 0 0x0) .noExcept false [(4, [254, 170])] = true := by decide

/-- Vector C-vmsge. -/
theorem test_vmsge_vv : answers (stateWith .x64 [(1, [2, 1, 128, 5]), (2, [1, 255, 128, 5]), (4, [240, 170])]
    0x0000000110412029 4 0 0x0) .noExcept false [(4, [252, 170])] = true := by decide

/-- Vector D-vmul. -/
theorem test_vmul_vv : answers (stateWith .x64 [(1, [128, 255, 2, 16]), (2, [128, 255, 127, 16]), (3, [170, 170, 170,
      170])]
    0x0000000110411830 4 0 0x0) .noExcept false [(3, [0, 1, 254, 0])] = true := by decide

/-- Vector D-vmulh. -/
theorem test_vmulh_vv : answers (stateWith .x64 [(1, [128, 255, 2, 16]), (2, [128, 255, 127, 16]), (3, [170, 170, 170,
      170])]
    0x0000000110411831 4 0 0x0) .noExcept false [(3, [64, 0, 0, 1])] = true := by decide

/-- Vector D-vmulhu. -/
theorem test_vmulhu_vv : answers (stateWith .x64 [(1, [128, 255, 2, 16]), (2, [128, 255, 127, 16]), (3, [170, 170,
      170, 170])]
    0x0000000110411832 4 0 0x0) .noExcept false [(3, [64, 254, 0, 1])] = true := by decide

/-- Vector D-vmulhsu. -/
theorem test_vmulhsu_vv : answers (stateWith .x64 [(1, [128, 255, 2, 16]), (2, [128, 255, 127, 16]), (3, [170, 170,
      170, 170])]
    0x0000000110411833 4 0 0x0) .noExcept false [(3, [192, 255, 0, 1])] = true := by decide

/-- Vector D-vdivu. -/
theorem test_vdivu_vv : answers (stateWith .x64 [(1, [0, 255, 2, 7]), (2, [7, 128, 249, 100]), (3, [170, 170, 170,
      170])]
    0x0000000110411834 4 0 0x0) .noExcept false [(3, [255, 0, 124, 14])] = true := by decide

/-- Vector D-vdiv. -/
theorem test_vdiv_vv : answers (stateWith .x64 [(1, [0, 255, 2, 7]), (2, [7, 128, 249, 100]), (3, [170, 170, 170, 170])]
    0x0000000110411835 4 0 0x0) .noExcept false [(3, [255, 128, 253, 14])] = true := by decide

/-- Vector D-vremu. -/
theorem test_vremu_vv : answers (stateWith .x64 [(1, [0, 255, 2, 7]), (2, [7, 128, 249, 100]), (3, [170, 170, 170,
      170])]
    0x0000000110411836 4 0 0x0) .noExcept false [(3, [7, 128, 1, 2])] = true := by decide

/-- Vector D-vrem. -/
theorem test_vrem_vv : answers (stateWith .x64 [(1, [0, 255, 2, 7]), (2, [7, 128, 249, 100]), (3, [170, 170, 170, 170])]
    0x0000000110411837 4 0 0x0) .noExcept false [(3, [7, 0, 255, 2])] = true := by decide

/-- Vector D-vwmulu. -/
theorem test_vwmulu_vv : answers (stateWith .x64 [(1, [128, 255, 2, 16]), (2, [128, 255, 127, 16]), (4, [170, 170,
      170, 170, 170, 170, 170, 170])]
    0x0000000210412038 4 0 0x0) .noExcept false [(4, [0, 64, 1, 254, 254, 0, 0, 1])] = true := by decide

/-- Vector D-vwmul. -/
theorem test_vwmul_vv : answers (stateWith .x64 [(1, [128, 255, 2, 16]), (2, [128, 255, 127, 16]), (4, [170, 170, 170,
      170, 170, 170, 170, 170])]
    0x0000000210412039 4 0 0x0) .noExcept false [(4, [0, 64, 1, 0, 254, 0, 0, 1])] = true := by decide

/-- Vector D-vwmulsu. -/
theorem test_vwmulsu_vv : answers (stateWith .x64 [(1, [128, 255, 2, 16]), (2, [128, 255, 127, 16]), (4, [170, 170,
      170, 170, 170, 170, 170, 170])]
    0x000000021041203A 4 0 0x0) .noExcept false [(4, [0, 192, 1, 255, 254, 0, 0, 1])] = true := by decide

/-- Vector D-vmacc. -/
theorem test_vmacc_vv : answers (stateWith .x64 [(1, [5, 7, 16, 255]), (2, [2, 3, 16, 255]), (3, [1, 100, 240, 0])]
    0x0000000110411840 4 0 0x0) .noExcept false [(3, [11, 121, 240, 1])] = true := by decide

/-- Vector D-vnmsac. -/
theorem test_vnmsac_vv : answers (stateWith .x64 [(1, [5, 7, 16, 255]), (2, [2, 3, 16, 255]), (3, [1, 100, 240, 0])]
    0x0000000110411841 4 0 0x0) .noExcept false [(3, [247, 79, 240, 255])] = true := by decide

/-- Vector D-vmadd. -/
theorem test_vmadd_vv : answers (stateWith .x64 [(1, [5, 7, 16, 255]), (2, [2, 3, 16, 255]), (3, [1, 100, 240, 0])]
    0x0000000110411842 4 0 0x0) .noExcept false [(3, [7, 191, 16, 255])] = true := by decide

/-- Vector D-vnmsub. -/
theorem test_vnmsub_vv : answers (stateWith .x64 [(1, [5, 7, 16, 255]), (2, [2, 3, 16, 255]), (3, [1, 100, 240, 0])]
    0x0000000110411843 4 0 0x0) .noExcept false [(3, [253, 71, 16, 255])] = true := by decide

/-- Vector D-vwmaccu. -/
theorem test_vwmaccu_vv : answers (stateWith .x64 [(1, [2, 255]), (2, [255, 2]), (4, [1, 0, 255, 255])]
    0x0000000210412044 2 0 0x0) .noExcept false [(4, [255, 1, 253, 1])] = true := by decide

/-- Vector D-vwmacc. -/
theorem test_vwmacc_vv : answers (stateWith .x64 [(1, [2, 255]), (2, [255, 2]), (4, [1, 0, 255, 255])]
    0x0000000210412045 2 0 0x0) .noExcept false [(4, [255, 255, 253, 255])] = true := by decide

/-- Vector D-vwmaccsu. -/
theorem test_vwmaccsu_vv : answers (stateWith .x64 [(1, [2, 255]), (2, [255, 2]), (4, [1, 0, 255, 255])]
    0x0000000210412046 2 0 0x0) .noExcept false [(4, [255, 1, 253, 255])] = true := by decide

/-- Vector D-vwmaccus. -/
theorem test_vwmaccus_vx : answers (stateWith .x64 [(1, [2, 255]), (2, [255, 2]), (4, [1, 0, 255, 255])]
    0x0000000210402147 2 0 0xFF) .noExcept false [(4, [2, 255, 253, 1])] = true := by decide

/-- Vector C-vadc. -/
theorem test_vadc_vvm : answers (stateWith .x64 [(0, [5]), (1, [0, 1, 0, 0]), (2, [255, 1, 127, 0]), (3, [170, 170,
      170, 170])]
    0x0000000110411850 4 0 0x0) .noExcept false [(3, [0, 2, 128, 0])] = true := by decide

/-- Vector C-vsbc. -/
theorem test_vsbc_vvm : answers (stateWith .x64 [(0, [5]), (1, [0, 1, 0, 0]), (2, [255, 1, 127, 0]), (3, [170, 170,
      170, 170])]
    0x0000000110411851 4 0 0x0) .noExcept false [(3, [254, 0, 126, 0])] = true := by decide

/-- Vector C-vmadc. -/
theorem test_vmadc_vv : answers (stateWith .x64 [(0, [5]), (1, [0, 1, 0, 0]), (2, [255, 1, 127, 0]), (4, [240])]
    0x0000000110412052 4 0 0x0) .noExcept false [(4, [240])] = true := by decide

/-- Vector C-vmsbc. -/
theorem test_vmsbc_vv : answers (stateWith .x64 [(1, [0, 1, 128, 0]), (2, [0, 1, 127, 0]), (4, [240])]
    0x0000000110412053 4 0 0x0) .noExcept false [(4, [244])] = true := by decide

/-- Vector S6-c. -/
theorem test_vsaddu_vv : answers (stateWith .x64 [(1, [255, 255, 1, 0]), (2, [255, 255, 52, 18]), (3, [170, 170, 170,
      170])]
    0x0000000114411858 2 0 0x0) .noExcept true [(3, [255, 255, 53, 18])] = true := by decide

/-- Vector F-vsadd. -/
theorem test_vsadd_vv : answers (stateWith .x64 [(1, [1, 255, 63, 128]), (2, [127, 128, 64, 128]), (3, [170, 170, 170,
      170])]
    0x0000000110411859 4 0 0x0) .noExcept true [(3, [127, 128, 127, 128])] = true := by decide

/-- Vector F-vssubu. -/
theorem test_vssubu_vv : answers (stateWith .x64 [(1, [10, 5, 0, 255]), (2, [5, 10, 0, 255]), (3, [170, 170, 170, 170])]
    0x000000011041185A 4 0 0x0) .noExcept true [(3, [0, 5, 0, 0])] = true := by decide

/-- Vector F-vssub. -/
theorem test_vssub_vv : answers (stateWith .x64 [(1, [1, 255, 128, 128]), (2, [128, 127, 0, 255]), (3, [170, 170, 170,
      170])]
    0x000000011041185B 4 0 0x0) .noExcept true [(3, [128, 127, 127, 127])] = true := by decide

/-- Vector F-vaaddu.rnu. -/
theorem test_vaaddu_vv : answers (stateWith .x64 [(1, [2, 3, 4, 255]), (2, [1, 2, 3, 255]), (3, [170, 170, 170, 170])]
    0x000000011041185C 4 0 0x0) .noExcept false [(3, [2, 3, 4, 255])] = true := by decide

/-- Vector F-vaadd.rnu. -/
theorem test_vaadd_vv : answers (stateWith .x64 [(1, [254, 127, 128, 2]), (2, [255, 127, 128, 1]), (3, [170, 170, 170,
      170])]
    0x000000011041185D 4 0 0x0) .noExcept false [(3, [255, 127, 128, 2])] = true := by decide

/-- Vector F-vasubu.rnu. -/
theorem test_vasubu_vv : answers (stateWith .x64 [(1, [1, 2, 255, 0]), (2, [0, 5, 0, 255]), (3, [170, 170, 170, 170])]
    0x000000011041185E 4 0 0x0) .noExcept false [(3, [0, 2, 129, 128])] = true := by decide

/-- Vector F-vasub.rnu. -/
theorem test_vasub_vv : answers (stateWith .x64 [(1, [128, 127, 2, 2]), (2, [127, 128, 1, 5]), (3, [170, 170, 170,
      170])]
    0x000000011041185F 4 0 0x0) .noExcept false [(3, [128, 129, 0, 2])] = true := by decide

/-- Vector P-vmerge. -/
theorem test_vmerge_vvm : answers (stateWith .x64 [(0, [5]), (1, [17, 18, 19, 20]), (2, [1, 2, 3, 4]), (3, [170, 170,
      170, 170, 170])]
    0x0000000110411860 4 2 0x0) .noExcept false [(3, [17, 2, 19, 4, 170])] = true := by decide

/-- Vector P-vmv.v.v. -/
theorem test_vmv_v_v : answers (stateWith .x64 [(0, [170, 170, 170, 170, 170, 170, 170, 170, 170, 170, 170, 170, 170,
      170, 170, 170]), (1, [1, 0, 0, 0, 2, 0, 0, 0, 3, 0, 0, 0, 4, 0, 0, 0])]
    0x0000000118010061 4 0 0x0) .noExcept false [(0, [1, 0, 0, 0, 2, 0, 0, 0, 3, 0, 0, 0, 4, 0, 0, 0])] = true := by
      decide

/-- Vector P-vslideup.vi. -/
theorem test_vslideup_vi : answers (stateWith .x64 [(2, [1, 2, 3, 4, 5, 6, 7, 8, 9, 10, 11, 12, 13, 14, 15, 16]), (3,
      [170, 170, 170, 170, 170])]
    0x0000000110421A68 4 0 0x0) .noExcept false [(3, [170, 170, 1, 2, 170])] = true := by decide

/-- Vector P-vslidedown.vi. -/
theorem test_vslidedown_vi : answers (stateWith .x64 [(2, [1, 2, 3, 4, 5, 6, 7, 8, 9, 10, 11, 12, 13, 14, 15, 16]),
      (3, [170, 170, 170, 170, 170])]
    0x0000000110421A69 4 0 0x0) .noExcept false [(3, [3, 4, 5, 6, 170])] = true := by decide

/-- Vector P-vslide1up. -/
theorem test_vslide1up_vx : answers (stateWith .x64 [(2, [1, 2, 3, 4, 5, 6, 7, 8, 9, 10, 11, 12, 13, 14, 15, 16]), (3,
      [170, 170, 170, 170, 170])]
    0x000000011040196A 4 0 0x77) .noExcept false [(3, [119, 1, 2, 3, 170])] = true := by decide

/-- Vector P-vslide1down. -/
theorem test_vslide1down_vx : answers (stateWith .x64 [(2, [1, 2, 3, 4, 5, 6, 7, 8, 9, 10, 11, 12, 13, 14, 15, 16]),
      (3, [170, 170, 170, 170, 170])]
    0x000000011040196B 4 0 0x77) .noExcept false [(3, [2, 3, 4, 119, 170])] = true := by decide

/-- Vector S2. -/
theorem test_vssubu_vv_2 : answers (stateWith .x64 [(1, [10]), (2, [5]), (3, [170, 170])]
    0x000000011041185A 1 0 0x0) .noExcept true [(3, [0, 170])] = true := by decide

/-- Vector S5-both. -/
theorem test_vadd_vv_2 : answers (stateWith .x64 [(0, [11]), (1, [16, 32, 48, 64]), (2, [1, 2, 3, 4]), (3, [170, 170,
      170, 170, 170])]
    0x0000000110411C00 4 1 0x0) .noExcept false [(3, [170, 34, 170, 68, 170])] = true := by decide

/-- Vector M-3. -/
theorem test_vadd_vi : answers (stateWith .x64 [(3, [170, 170, 170, 170])]
    0x0000000110411A00 4 9 0x0) .noExcept false [(3, [170, 170, 170, 170])] = true := by decide

/-- Vector M-4. -/
theorem test_vadd_vx : answers (stateWith .x64 [(0, [165]), (2, [1, 0, 2, 0, 3, 0, 4, 0, 5, 0, 6, 0, 7, 0, 8, 0]), (3,
      [170, 170, 170, 170, 170, 170, 170, 170, 170, 170, 170, 170, 170, 170, 170, 170])]
    0x0000000114401D00 8 0 0x100) .noExcept false [(3, [1, 1, 170, 170, 3, 1, 170, 170, 170, 170, 6, 1, 170, 170, 8,
      1])] = true := by decide

/-- Vector L-2. -/
theorem test_vadd_vi_2 : answers (stateWith .x64 [(2, [1, 0, 0, 0, 2, 0, 0, 0, 3, 0, 0, 0, 4, 0, 0, 0]), (3, [5, 0, 0,
      0, 6, 0, 0, 0, 7, 0, 0, 0, 8, 0, 0, 0]), (4, [170, 170, 170, 170, 170, 170, 170, 170, 170, 170, 170, 170, 170,
      170, 170, 170]), (5, [170, 170, 170, 170, 170, 170, 170, 170, 170, 170, 170, 170, 170, 170, 170, 170])]
    0x0000000128412200 8 0 0x0) .noExcept false [(4, [2, 0, 0, 0, 3, 0, 0, 0, 4, 0, 0, 0, 5, 0, 0, 0]), (5, [6, 0, 0,
      0, 7, 0, 0, 0, 8, 0, 0, 0, 9, 0, 0, 0])] = true := by decide

/-- Vector O-4. -/
theorem test_vmsgtu_vi : answers (stateWith .x64 [(1, [170]), (2, [254, 255, 5, 0])]
    0x00000001145E0A26 2 0 0x0) .noExcept false [(1, [168])] = true := by decide

/-- Vector O-5. -/
theorem test_vsll_vi : answers (stateWith .x64 [(2, [1]), (3, [170])]
    0x00000001105F1A06 1 0 0x0) .noExcept false [(3, [128])] = true := by decide

/-- Vector O-7. -/
theorem test_vadd_vx_2 : answers (stateWith .x32 [(2, [0, 0, 0, 0, 0, 0, 0, 0, 1, 0, 0, 0, 0, 0, 0, 0]), (3, [170,
      170, 170, 170, 170, 170, 170, 170, 170, 170, 170, 170, 170, 170, 170, 170])]
    0x000000011C401900 2 0 0xDEADBEEF00000005) .noExcept false [(3, [5, 0, 0, 0, 0, 0, 0, 0, 6, 0, 0, 0, 0, 0, 0, 0])]
      = true := by decide

/-- Vector O-8. -/
theorem test_vminu_vx : answers (stateWith .x32 [(2, [255, 255, 255, 255, 255, 255, 255, 255, 1, 0, 0, 0, 0, 0, 0,
      0]), (3, [170, 170, 170, 170, 170, 170, 170, 170, 170, 170, 170, 170, 170, 170, 170, 170])]
    0x000000011C401909 2 0 0xFFFFFFFF) .noExcept false [(3, [255, 255, 255, 255, 255, 255, 255, 255, 1, 0, 0, 0, 0, 0,
      0, 0])] = true := by decide

/-- Vector X-12. -/
theorem test_vnsrl_wi : answers (stateWith .x64 [(8, [0, 1, 1, 1, 2, 1, 3, 1, 4, 1, 5, 1, 6, 1, 7, 1]), (9, [0, 2, 1,
      2, 2, 2, 3, 2, 4, 2, 5, 2, 6, 2, 7, 2])]
    0x000000011104421C 16 0 0x0) .noExcept false [(8, [16, 16, 16, 16, 16, 16, 16, 16, 32, 32, 32, 32, 32, 32, 32,
      32])] = true := by decide

/-- Vector X-20. -/
theorem test_vmseq_vv : answers (stateWith .x64 [(7, [170, 170]), (8, [0, 1, 1, 1, 2, 1, 3, 1, 4, 1, 5, 1, 6, 1, 7,
      1]), (9, [0, 2, 1, 2, 2, 2, 3, 2, 4, 2, 5, 2, 6, 2, 7, 2])]
    0x0000000128443820 8 0 0x0) .noExcept false [(7, [255, 170])] = true := by decide

/-- Vector C-vmadcm. -/
theorem test_vmadc_vvm : answers (stateWith .x64 [(0, [5]), (1, [0, 1, 0, 0]), (2, [255, 1, 127, 0]), (4, [240])]
    0x0000000110412452 4 0 0x0) .noExcept false [(4, [241])] = true := by decide

/-- Vector C-vmsbcm. -/
theorem test_vmsbc_vvm : answers (stateWith .x64 [(0, [9]), (1, [0, 1, 128, 0]), (2, [0, 1, 127, 0]), (4, [240])]
    0x0000000110412453 4 0 0x0) .noExcept false [(4, [253])] = true := by decide

/-- Vector C-v0dest. -/
theorem test_vmslt_vx : answers (stateWith .x64 [(0, [3]), (1, [2, 1, 128, 5]), (2, [1, 255, 128, 5]), (4, [240])]
    0x0000000110400523 4 0 0x2) .noExcept false [(0, [3])] = true := by decide

/-- Vector C-masked. -/
theorem test_vmsleu_vv_2 : answers (stateWith .x64 [(0, [6]), (1, [2, 1, 128, 5]), (2, [1, 255, 128, 5]), (4, [240])]
    0x0000000110412424 4 1 0x0) .noExcept false [(4, [244])] = true := by decide

/-- Vector F-sat.masked. -/
theorem test_vsaddu_vv_2 : answers (stateWith .x64 [(0, [10]), (1, [100, 1, 100, 1]), (2, [200, 1, 200, 1]), (3, [170,
      170, 170, 170])]
    0x0000000110411C58 4 0 0x0) .noExcept false [(3, [170, 2, 170, 2])] = true := by decide

/-- Vector F-vaaddu.rne. -/
theorem test_vaaddu_vv_2 : answers (stateWith .x64 [(1, [2, 3, 4, 255]), (2, [1, 2, 3, 255]), (3, [170, 170, 170, 170])]
    0x000000111041185C 4 0 0x0) .noExcept false [(3, [2, 2, 4, 255])] = true := by decide

/-- Vector F-vaadd.rod. -/
theorem test_vaadd_vv_2 : answers (stateWith .x64 [(1, [254, 127, 128, 2]), (2, [255, 127, 128, 1]), (3, [170, 170,
      170, 170])]
    0x000000311041185D 4 0 0x0) .noExcept false [(3, [255, 127, 128, 1])] = true := by decide

/-- Vector F-vsadd16. -/
theorem test_vsadd_vx : answers (stateWith .x64 [(2, [255, 127, 0, 128]), (3, [170, 170, 170, 170])]
    0x0000000114401959 2 0 0x1) .noExcept true [(3, [255, 127, 1, 128])] = true := by decide

/-- Vector F-vssub64. -/
theorem test_vssub_vx : answers (stateWith .x64 [(2, [0, 0, 0, 0, 0, 0, 0, 128, 255, 255, 255, 255, 255, 255, 255,
      127]), (3, [170, 170, 170, 170, 170, 170, 170, 170, 170, 170, 170, 170, 170, 170, 170, 170])]
    0x000000011C40195B 2 0 0x1) .noExcept true [(3, [0, 0, 0, 0, 0, 0, 0, 128, 254, 255, 255, 255, 255, 255, 255,
      127])] = true := by decide

/-- Vector P-vmv.v.x. -/
theorem test_vmv_v_x : answers (stateWith .x64 [(0, [5]), (1, [17, 18, 19, 20]), (2, [1, 2, 3, 4]), (3, [170, 170,
      170, 170, 170, 170])]
    0x0000000114001961 2 0 0x1234) .noExcept false [(3, [52, 18, 52, 18, 170, 170])] = true := by decide

/-- Vector P-vslideup.m. -/
theorem test_vslideup_vi_2 : answers (stateWith .x64 [(0, [6]), (2, [1, 2, 3, 4, 5, 6, 7, 8, 9, 10, 11, 12, 13, 14,
      15, 16]), (3, [170, 170, 170, 170, 170])]
    0x0000000110411E68 4 0 0x0) .noExcept false [(3, [170, 1, 2, 170, 170])] = true := by decide

/-- Vector P-vslidedown.max. -/
theorem test_vslidedown_vx : answers (stateWith .x64 [(2, [1, 2, 3, 4, 5, 6, 7, 8, 9, 10, 11, 12, 13, 14, 15, 16]),
      (3, [170, 170, 170, 170, 170])]
    0x0000000110401969 4 0 0xFFFFFFFFFFFFFFFF) .noExcept false [(3, [0, 0, 0, 0, 170])] = true := by decide

/-- Vector P-vslidedown.mf2. -/
theorem test_vslidedown_vi_2 : answers (stateWith .x64 [(2, [1, 2, 3, 4, 5, 6, 7, 8, 9, 10, 11, 12, 13, 14, 15, 16]),
      (3, [170, 170, 170, 170, 170])]
    0x0000000210461A69 4 0 0x0) .noExcept false [(3, [7, 8, 0, 0, 170])] = true := by decide

/-- Vector P-vslide1up.vs. -/
theorem test_vslide1up_vx_2 : answers (stateWith .x64 [(2, [1, 2, 3, 4, 5, 6, 7, 8, 9, 10, 11, 12, 13, 14, 15, 16]),
      (3, [170, 170, 170, 170, 170])]
    0x000000011040196A 4 1 0x77) .noExcept false [(3, [170, 1, 2, 3, 170])] = true := by decide

/-- Vector P-vslide1down.m. -/
theorem test_vslide1down_vx_2 : answers (stateWith .x64 [(0, [6]), (2, [1, 2, 3, 4, 5, 6, 7, 8, 9, 10, 11, 12, 13, 14,
      15, 16]), (3, [170, 170, 170, 170, 170])]
    0x0000000110401D6B 4 0 0x77) .noExcept false [(3, [170, 3, 4, 170, 170])] = true := by decide

/-- Vector D-vwmaccsu.vx. -/
theorem test_vwmaccsu_vx : answers (stateWith .x64 [(1, [2, 255]), (2, [255, 2]), (4, [1, 0, 255, 255])]
    0x0000000210402146 2 0 0xFF) .noExcept false [(4, [2, 255, 253, 255])] = true := by decide

/-- Vector W-vnsra64. -/
theorem test_vnsra_wx : answers (stateWith .x64 [(4, [0, 0, 0, 0, 0, 0, 0, 128, 255, 255, 255, 255, 1, 0, 0, 0]), (6,
      [170, 170, 170, 170, 170, 170, 170, 170])]
    0x000000011880311D 2 0 0x7F) .noExcept false [(6, [255, 255, 255, 255, 0, 0, 0, 0])] = true := by decide

/-- Vector D-vdiv32. -/
theorem test_vdiv_vx : answers (stateWith .x64 [(2, [0, 0, 0, 128, 249, 255, 255, 255]), (3, [170, 170, 170, 170, 170,
      170, 170, 170])]
    0x0000000118401935 2 0 0xFFFFFFFFFFFFFFFF) .noExcept false [(3, [0, 0, 0, 128, 7, 0, 0, 0])] = true := by decide

/-- Vector A-vsra64. -/
theorem test_vsra_vx : answers (stateWith .x64 [(2, [1, 0, 0, 0, 0, 0, 0, 128, 0, 0, 0, 0, 1, 0, 0, 0]), (3, [170,
      170, 170, 170, 170, 170, 170, 170, 170, 170, 170, 170, 170, 170, 170, 170])]
    0x000000011C401908 2 0 0x44) .noExcept false [(3, [0, 0, 0, 0, 0, 0, 0, 248, 0, 0, 0, 16, 0, 0, 0, 0])] = true :=
      by decide

/-- Vector P-vmerge.vim. -/
theorem test_vmerge_vim : answers (stateWith .x64 [(0, [5]), (1, [17, 18, 19, 20]), (2, [1, 2, 3, 4]), (3, [170, 170,
      170, 170, 170])]
    0x00000001105F1A60 4 0 0x0) .noExcept false [(3, [255, 2, 255, 4, 170])] = true := by decide

/-! ## Statuses, hazards and refusals -/

/-- Vector X-3: status code 1. -/
theorem test_status_1 : reports (stateWith .x64 [(4, [1, 2, 3])] 0x0000000128851000 8 0 0) .src1VecIll = true ∧ statusCode .src1VecIll = 1 := by decide

/-- Vector X-2: status code 2. -/
theorem test_status_2 : reports (stateWith .x64 [(4, [1, 2, 3])] 0x0000000128641000 8 0 0) .src2VecIll = true ∧ statusCode .src2VecIll = 2 := by decide

/-- Vector X-1: status code 3. -/
theorem test_status_3 : reports (stateWith .x64 [(4, [1, 2, 3])] 0x0000000128441800 8 0 0) .dstVecIll = true ∧ statusCode .dstVecIll = 3 := by decide

/-- Vector S7-d: status code 4. -/
theorem test_status_4 : reports (stateWith .x64 [(6, [1, 2, 3])] 0x0000000118C84019 4 0 0) .wideningOverlapVdVs1Ill = true ∧ statusCode .wideningOverlapVdVs1Ill = 4 := by decide

/-- Vector X-9: status code 5. -/
theorem test_status_5 : reports (stateWith .x64 [(4, [1, 2, 3])] 0x0000000125044018 16 0 0) .wideningOverlapVdVs2Ill = true ∧ statusCode .wideningOverlapVdVs2Ill = 5 := by decide

/-- Vector X-13: status code 6. -/
theorem test_status_6 : reports (stateWith .x64 [(4, [1, 2, 3])] 0x0000000111044A1C 16 0 0) .narrowingOverlapVdVs2Ill = true ∧ statusCode .narrowingOverlapVdVs2Ill = 6 := by decide


/-- `vadd.vv v0, v2, v1, v0.t`, `vadc.vvm v0, v2, v1, v0`, `vslideup.vi v2, v2, 1` and `vmseq.vv v3, v2, v4` at `LMUL = 2` are
valid and hazardous (R337, R338, R339). -/
theorem test_hazards_refused :
    refuses (stateWith .x64 [] 0x0000000110410400 4 0 0) (.hazardous .v0Destination) = true ∧
    refuses (stateWith .x64 [] 0x0000000110410050 4 0 0) (.hazardous .v0Destination) = true ∧
    refuses (stateWith .x64 [] 0x0000000110411268 4 0 0) (.hazardous .slideUpOntoSource) = true ∧
    refuses (stateWith .x64 [] 0x0000000120441820 4 0 0) (.hazardous .maskInsideSource) = true := by decide

/-- A move to `v0` and an unmasked `vadd.vv v0, v2, v1` have no hazard (R337). -/
theorem test_v0_destination_allowed :
    answers (stateWith .x64 [(2, [1]), (1, [2])] 0x0000000110410000 1 0 0) .noExcept false [(0, [3])] = true ∧
    answers (stateWith .x64 [] 0x0000000110050661 1 0 0) .noExcept false [(0, [5])] = true := by decide

/-- A reserved descriptor, the pair 0/0, `vwadd.vv` with `SEW = 64` and with `LMUL = 8`, and `VL = VLMAX + 1` are refused
(R82, R84, R104). -/
theorem test_not_admitted_refused :
    refuses (stateWith .x64 [] 0x0000004110411800 4 0 0) (.reservedDescriptor .reservedBits) = true ∧
    refuses (stateWith .x64 [] 0x0000000000411800 4 0 0) (.notAdmitted .multiplicity) = true ∧
    refuses (stateWith .x64 [] 0x000000011C412019 1 0 0) (.notAdmitted .elementWidth) = true ∧
    refuses (stateWith .x64 [] 0x0000000180504019 1 0 0) (.notAdmitted .effectiveMultiplicity) = true ∧
    refuses (stateWith .x64 [] 0x0000000110411800 17 0 0) .vectorLength = true := by decide

/-- `VL = VLMAX = 16` is admitted (R104). -/
theorem test_vl_at_vlmax : answers (stateWith .x64 [(2, [1]), (1, [2])] 0x0000000110411800 16 15 0) .noExcept false
    [(3, [0])] = true := by decide

/-- The step answers exactly this next state. -/
def goesTo (s t : State) : Bool :=
  match step s with
  | .next t' => decide (t' = t)
  | .fault _ | .refused _ => false

/-- The step stops with this fault. -/
def faults (s : State) (f : Fault) : Bool :=
  match step s with
  | .fault f' => decide (f' = f)
  | .next _ | .refused _ => false

/-- A host write, and a host read of what it wrote, up to the last byte of the register file and past it (R29). -/
theorem test_host_port :
    goesTo { State.reset with inputs := [.hostWrite 510 [7, 8]] } { State.reset with vrf := [(510, 7), (511, 8)] } = true ∧
    goesTo { State.reset with vrf := [(510, 7), (511, 8)], inputs := [.hostRead 509 3] }
      { State.reset with vrf := [(510, 7), (511, 8)], readData := some [0, 7, 8] } = true ∧
    faults { State.reset with inputs := [.hostWrite 511 [7, 8]] } (.hostPortOutOfRange 511 2) = true ∧
    faults { State.reset with inputs := [.hostRead 512 1] } (.hostPortOutOfRange 512 1) = true := by decide

/-- The reset input withdraws the response and keeps the register file (R330). -/
theorem test_reset_input :
    goesTo { State.reset with vrf := [(16, 1)], response := some ⟨.noExcept, true⟩, inputs := [.reset] }
      { State.reset with vrf := [(16, 1)] } = true := by decide

/-- The host presents the fetched word next, with the values it drives. -/
theorem test_withFetchWord :
    answers (State.withFetchWord { State.reset with vrf := [(16, 5), (32, 9)], port := ⟨0, 1, 0, 0⟩ } 64 0x0000000110411800)
      .noExcept false [(3, [14])] = true ∧
    goesTo (State.withFetchWord State.reset 64 0x0000000110411800)
      { State.reset with port := ⟨0x0000000110411800, 0, 0, 0⟩, response := some ⟨.noExcept, false⟩ } = true := by decide

/-! ## Witnesses: for each statement with hypotheses, a state and operands that meet them -/

/-- Registers `v0` (bits 0, 1 set and bit 2 clear), `v1`, `v2` hold data; the host drives `VL = 3`, `VSTART = 1`, `RS1 = 1`. -/
def sample : State :=
  { State.reset with
    vrf := [(0, 3), (16, 5), (17, 200), (18, 7), (32, 9), (33, 100), (34, 1)]
    port := ⟨0, 3, 1, 1⟩ }

theorem witness_sample_inv : sample.inv := by decide

/-- Index 1 is written by a masked request on the sample, index 2 (inactive) and index 0 (below `VSTART`) are not. -/
theorem witness_sample_touched :
    Touched sample true 1 ∧ ¬ Touched sample true 2 ∧ ¬ Touched sample true 0 ∧ Touched sample false 2 ∧
    InLoop sample 1 ∧ InLoop sample 2 ∧ ¬ InLoop sample 3 := by decide

/-- Each instruction's request on the sample is carried out. -/
def runAll (l : List Instr) : Bool := l.all fun i => decide (Runs (planOf i) sample)

/-- Each instruction's request on the sample is admitted and fails validation. -/
def failAll (l : List Instr) : Bool :=
  l.all fun i => decide (Admitted (planOf i) sample ∧ validate (planOf i) ≠ .noExcept)

theorem witness_AddAndSubtractResults_runs : runAll [
    .vaddVV ⟨true, 3, 1, 2, ⟨.e8, 1, 1, .rnu⟩⟩, .vaddVX ⟨true, 3, 2, ⟨.e8, 1, 1, .rnu⟩⟩,
    .vaddVI ⟨true, 3, 1, 2, ⟨.e8, 1, 1, .rnu⟩⟩, .vsubVV ⟨true, 3, 1, 2, ⟨.e8, 1, 1, .rnu⟩⟩,
    .vsubVX ⟨true, 3, 2, ⟨.e8, 1, 1, .rnu⟩⟩, .vrsubVX ⟨true, 3, 2, ⟨.e8, 1, 1, .rnu⟩⟩,
    .vrsubVI ⟨true, 3, 1, 2, ⟨.e8, 1, 1, .rnu⟩⟩] = true := by decide

theorem witness_AddAndSubtractResults_fails : failAll [
    .vaddVV ⟨true, 3, 2, 3, ⟨.e8, 2, 1, .rnu⟩⟩, .vaddVX ⟨true, 3, 3, ⟨.e8, 2, 1, .rnu⟩⟩,
    .vaddVI ⟨true, 3, 2, 3, ⟨.e8, 2, 1, .rnu⟩⟩, .vsubVV ⟨true, 3, 2, 3, ⟨.e8, 2, 1, .rnu⟩⟩,
    .vsubVX ⟨true, 3, 3, ⟨.e8, 2, 1, .rnu⟩⟩, .vrsubVX ⟨true, 3, 3, ⟨.e8, 2, 1, .rnu⟩⟩,
    .vrsubVI ⟨true, 3, 2, 3, ⟨.e8, 2, 1, .rnu⟩⟩] = true := by decide

theorem witness_LogicResults_runs : runAll [
    .vandVV ⟨true, 3, 1, 2, ⟨.e8, 1, 1, .rnu⟩⟩, .vandVX ⟨true, 3, 2, ⟨.e8, 1, 1, .rnu⟩⟩,
    .vandVI ⟨true, 3, 1, 2, ⟨.e8, 1, 1, .rnu⟩⟩, .vorVV ⟨true, 3, 1, 2, ⟨.e8, 1, 1, .rnu⟩⟩,
    .vorVX ⟨true, 3, 2, ⟨.e8, 1, 1, .rnu⟩⟩, .vorVI ⟨true, 3, 1, 2, ⟨.e8, 1, 1, .rnu⟩⟩,
    .vxorVV ⟨true, 3, 1, 2, ⟨.e8, 1, 1, .rnu⟩⟩, .vxorVX ⟨true, 3, 2, ⟨.e8, 1, 1, .rnu⟩⟩,
    .vxorVI ⟨true, 3, 1, 2, ⟨.e8, 1, 1, .rnu⟩⟩] = true := by decide

theorem witness_LogicResults_fails : failAll [
    .vandVV ⟨true, 3, 2, 3, ⟨.e8, 2, 1, .rnu⟩⟩, .vandVX ⟨true, 3, 3, ⟨.e8, 2, 1, .rnu⟩⟩,
    .vandVI ⟨true, 3, 2, 3, ⟨.e8, 2, 1, .rnu⟩⟩, .vorVV ⟨true, 3, 2, 3, ⟨.e8, 2, 1, .rnu⟩⟩,
    .vorVX ⟨true, 3, 3, ⟨.e8, 2, 1, .rnu⟩⟩, .vorVI ⟨true, 3, 2, 3, ⟨.e8, 2, 1, .rnu⟩⟩,
    .vxorVV ⟨true, 3, 2, 3, ⟨.e8, 2, 1, .rnu⟩⟩, .vxorVX ⟨true, 3, 3, ⟨.e8, 2, 1, .rnu⟩⟩,
    .vxorVI ⟨true, 3, 2, 3, ⟨.e8, 2, 1, .rnu⟩⟩] = true := by decide

theorem witness_ShiftResults_runs : runAll [
    .vsllVV ⟨true, 3, 1, 2, ⟨.e8, 1, 1, .rnu⟩⟩, .vsllVX ⟨true, 3, 2, ⟨.e8, 1, 1, .rnu⟩⟩,
    .vsllVI ⟨true, 3, 1, 2, ⟨.e8, 1, 1, .rnu⟩⟩, .vsrlVV ⟨true, 3, 1, 2, ⟨.e8, 1, 1, .rnu⟩⟩,
    .vsrlVX ⟨true, 3, 2, ⟨.e8, 1, 1, .rnu⟩⟩, .vsrlVI ⟨true, 3, 1, 2, ⟨.e8, 1, 1, .rnu⟩⟩,
    .vsraVV ⟨true, 3, 1, 2, ⟨.e8, 1, 1, .rnu⟩⟩, .vsraVX ⟨true, 3, 2, ⟨.e8, 1, 1, .rnu⟩⟩,
    .vsraVI ⟨true, 3, 1, 2, ⟨.e8, 1, 1, .rnu⟩⟩] = true := by decide

theorem witness_ShiftResults_fails : failAll [
    .vsllVV ⟨true, 3, 2, 3, ⟨.e8, 2, 1, .rnu⟩⟩, .vsllVX ⟨true, 3, 3, ⟨.e8, 2, 1, .rnu⟩⟩,
    .vsllVI ⟨true, 3, 2, 3, ⟨.e8, 2, 1, .rnu⟩⟩, .vsrlVV ⟨true, 3, 2, 3, ⟨.e8, 2, 1, .rnu⟩⟩,
    .vsrlVX ⟨true, 3, 3, ⟨.e8, 2, 1, .rnu⟩⟩, .vsrlVI ⟨true, 3, 2, 3, ⟨.e8, 2, 1, .rnu⟩⟩,
    .vsraVV ⟨true, 3, 2, 3, ⟨.e8, 2, 1, .rnu⟩⟩, .vsraVX ⟨true, 3, 3, ⟨.e8, 2, 1, .rnu⟩⟩,
    .vsraVI ⟨true, 3, 2, 3, ⟨.e8, 2, 1, .rnu⟩⟩] = true := by decide

theorem witness_MinMaxResults_runs : runAll [
    .vminuVV ⟨true, 3, 1, 2, ⟨.e8, 1, 1, .rnu⟩⟩, .vminuVX ⟨true, 3, 2, ⟨.e8, 1, 1, .rnu⟩⟩,
    .vminVV ⟨true, 3, 1, 2, ⟨.e8, 1, 1, .rnu⟩⟩, .vminVX ⟨true, 3, 2, ⟨.e8, 1, 1, .rnu⟩⟩,
    .vmaxuVV ⟨true, 3, 1, 2, ⟨.e8, 1, 1, .rnu⟩⟩, .vmaxuVX ⟨true, 3, 2, ⟨.e8, 1, 1, .rnu⟩⟩,
    .vmaxVV ⟨true, 3, 1, 2, ⟨.e8, 1, 1, .rnu⟩⟩, .vmaxVX ⟨true, 3, 2, ⟨.e8, 1, 1, .rnu⟩⟩] = true := by decide

theorem witness_MinMaxResults_fails : failAll [
    .vminuVV ⟨true, 3, 2, 3, ⟨.e8, 2, 1, .rnu⟩⟩, .vminuVX ⟨true, 3, 3, ⟨.e8, 2, 1, .rnu⟩⟩,
    .vminVV ⟨true, 3, 2, 3, ⟨.e8, 2, 1, .rnu⟩⟩, .vminVX ⟨true, 3, 3, ⟨.e8, 2, 1, .rnu⟩⟩,
    .vmaxuVV ⟨true, 3, 2, 3, ⟨.e8, 2, 1, .rnu⟩⟩, .vmaxuVX ⟨true, 3, 3, ⟨.e8, 2, 1, .rnu⟩⟩,
    .vmaxVV ⟨true, 3, 2, 3, ⟨.e8, 2, 1, .rnu⟩⟩, .vmaxVX ⟨true, 3, 3, ⟨.e8, 2, 1, .rnu⟩⟩] = true := by decide

theorem witness_ExtensionResults_runs : runAll [
    .vzextVf2 ⟨true, 4, 8, ⟨.e16, 4, 1, .rnu⟩⟩, .vzextVf4 ⟨true, 4, 8, ⟨.e32, 4, 1, .rnu⟩⟩,
    .vzextVf8 ⟨true, 4, 8, ⟨.e64, 4, 1, .rnu⟩⟩, .vsextVf2 ⟨true, 4, 8, ⟨.e16, 4, 1, .rnu⟩⟩,
    .vsextVf4 ⟨true, 4, 8, ⟨.e32, 4, 1, .rnu⟩⟩, .vsextVf8 ⟨true, 4, 8, ⟨.e64, 4, 1, .rnu⟩⟩] = true := by decide

theorem witness_ExtensionResults_fails : failAll [
    .vzextVf2 ⟨true, 6, 8, ⟨.e16, 4, 1, .rnu⟩⟩, .vzextVf4 ⟨true, 6, 8, ⟨.e32, 4, 1, .rnu⟩⟩,
    .vzextVf8 ⟨true, 6, 8, ⟨.e64, 4, 1, .rnu⟩⟩, .vsextVf2 ⟨true, 6, 8, ⟨.e16, 4, 1, .rnu⟩⟩,
    .vsextVf4 ⟨true, 6, 8, ⟨.e32, 4, 1, .rnu⟩⟩, .vsextVf8 ⟨true, 6, 8, ⟨.e64, 4, 1, .rnu⟩⟩] = true := by decide

theorem witness_WideningAddAndSubtractResults_runs : runAll [
    .vwadduVV ⟨true, 4, 1, 2, ⟨.e8, 1, 1, .rnu⟩⟩, .vwadduVX ⟨true, 4, 2, ⟨.e8, 1, 1, .rnu⟩⟩,
    .vwaddVV ⟨true, 4, 1, 2, ⟨.e8, 1, 1, .rnu⟩⟩, .vwaddVX ⟨true, 4, 2, ⟨.e8, 1, 1, .rnu⟩⟩,
    .vwsubuVV ⟨true, 4, 1, 2, ⟨.e8, 1, 1, .rnu⟩⟩, .vwsubuVX ⟨true, 4, 2, ⟨.e8, 1, 1, .rnu⟩⟩,
    .vwsubVV ⟨true, 4, 1, 2, ⟨.e8, 1, 1, .rnu⟩⟩, .vwsubVX ⟨true, 4, 2, ⟨.e8, 1, 1, .rnu⟩⟩] = true := by decide

theorem witness_WideningAddAndSubtractResults_fails : failAll [
    .vwadduVV ⟨true, 3, 2, 3, ⟨.e8, 2, 1, .rnu⟩⟩, .vwadduVX ⟨true, 3, 3, ⟨.e8, 2, 1, .rnu⟩⟩,
    .vwaddVV ⟨true, 3, 2, 3, ⟨.e8, 2, 1, .rnu⟩⟩, .vwaddVX ⟨true, 3, 3, ⟨.e8, 2, 1, .rnu⟩⟩,
    .vwsubuVV ⟨true, 3, 2, 3, ⟨.e8, 2, 1, .rnu⟩⟩, .vwsubuVX ⟨true, 3, 3, ⟨.e8, 2, 1, .rnu⟩⟩,
    .vwsubVV ⟨true, 3, 2, 3, ⟨.e8, 2, 1, .rnu⟩⟩, .vwsubVX ⟨true, 3, 3, ⟨.e8, 2, 1, .rnu⟩⟩] = true := by decide

theorem witness_NarrowingShiftResults_runs : runAll [
    .vnsrlWV ⟨true, 4, 1, 2, ⟨.e8, 1, 1, .rnu⟩⟩, .vnsrlWX ⟨true, 4, 2, ⟨.e8, 1, 1, .rnu⟩⟩,
    .vnsrlWI ⟨true, 4, 1, 2, ⟨.e8, 1, 1, .rnu⟩⟩, .vnsraWV ⟨true, 4, 1, 2, ⟨.e8, 1, 1, .rnu⟩⟩,
    .vnsraWX ⟨true, 4, 2, ⟨.e8, 1, 1, .rnu⟩⟩, .vnsraWI ⟨true, 4, 1, 2, ⟨.e8, 1, 1, .rnu⟩⟩] = true := by decide

theorem witness_NarrowingShiftResults_fails : failAll [
    .vnsrlWV ⟨true, 3, 2, 2, ⟨.e8, 2, 1, .rnu⟩⟩, .vnsrlWX ⟨true, 3, 2, ⟨.e8, 2, 1, .rnu⟩⟩,
    .vnsrlWI ⟨true, 3, 2, 2, ⟨.e8, 2, 1, .rnu⟩⟩, .vnsraWV ⟨true, 3, 2, 2, ⟨.e8, 2, 1, .rnu⟩⟩,
    .vnsraWX ⟨true, 3, 2, ⟨.e8, 2, 1, .rnu⟩⟩, .vnsraWI ⟨true, 3, 2, 2, ⟨.e8, 2, 1, .rnu⟩⟩] = true := by decide

theorem witness_MultiplyResults_runs : runAll [
    .vmulVV ⟨true, 3, 1, 2, ⟨.e8, 1, 1, .rnu⟩⟩, .vmulVX ⟨true, 3, 2, ⟨.e8, 1, 1, .rnu⟩⟩,
    .vmulhVV ⟨true, 3, 1, 2, ⟨.e8, 1, 1, .rnu⟩⟩, .vmulhVX ⟨true, 3, 2, ⟨.e8, 1, 1, .rnu⟩⟩,
    .vmulhuVV ⟨true, 3, 1, 2, ⟨.e8, 1, 1, .rnu⟩⟩, .vmulhuVX ⟨true, 3, 2, ⟨.e8, 1, 1, .rnu⟩⟩,
    .vmulhsuVV ⟨true, 3, 1, 2, ⟨.e8, 1, 1, .rnu⟩⟩, .vmulhsuVX ⟨true, 3, 2, ⟨.e8, 1, 1, .rnu⟩⟩] = true := by decide

theorem witness_MultiplyResults_fails : failAll [
    .vmulVV ⟨true, 3, 2, 3, ⟨.e8, 2, 1, .rnu⟩⟩, .vmulVX ⟨true, 3, 3, ⟨.e8, 2, 1, .rnu⟩⟩,
    .vmulhVV ⟨true, 3, 2, 3, ⟨.e8, 2, 1, .rnu⟩⟩, .vmulhVX ⟨true, 3, 3, ⟨.e8, 2, 1, .rnu⟩⟩,
    .vmulhuVV ⟨true, 3, 2, 3, ⟨.e8, 2, 1, .rnu⟩⟩, .vmulhuVX ⟨true, 3, 3, ⟨.e8, 2, 1, .rnu⟩⟩,
    .vmulhsuVV ⟨true, 3, 2, 3, ⟨.e8, 2, 1, .rnu⟩⟩, .vmulhsuVX ⟨true, 3, 3, ⟨.e8, 2, 1, .rnu⟩⟩] = true := by decide

theorem witness_DivideAndRemainderResults_runs : runAll [
    .vdivuVV ⟨true, 3, 1, 2, ⟨.e8, 1, 1, .rnu⟩⟩, .vdivuVX ⟨true, 3, 2, ⟨.e8, 1, 1, .rnu⟩⟩,
    .vdivVV ⟨true, 3, 1, 2, ⟨.e8, 1, 1, .rnu⟩⟩, .vdivVX ⟨true, 3, 2, ⟨.e8, 1, 1, .rnu⟩⟩,
    .vremuVV ⟨true, 3, 1, 2, ⟨.e8, 1, 1, .rnu⟩⟩, .vremuVX ⟨true, 3, 2, ⟨.e8, 1, 1, .rnu⟩⟩,
    .vremVV ⟨true, 3, 1, 2, ⟨.e8, 1, 1, .rnu⟩⟩, .vremVX ⟨true, 3, 2, ⟨.e8, 1, 1, .rnu⟩⟩] = true := by decide

theorem witness_DivideAndRemainderResults_fails : failAll [
    .vdivuVV ⟨true, 3, 2, 3, ⟨.e8, 2, 1, .rnu⟩⟩, .vdivuVX ⟨true, 3, 3, ⟨.e8, 2, 1, .rnu⟩⟩,
    .vdivVV ⟨true, 3, 2, 3, ⟨.e8, 2, 1, .rnu⟩⟩, .vdivVX ⟨true, 3, 3, ⟨.e8, 2, 1, .rnu⟩⟩,
    .vremuVV ⟨true, 3, 2, 3, ⟨.e8, 2, 1, .rnu⟩⟩, .vremuVX ⟨true, 3, 3, ⟨.e8, 2, 1, .rnu⟩⟩,
    .vremVV ⟨true, 3, 2, 3, ⟨.e8, 2, 1, .rnu⟩⟩, .vremVX ⟨true, 3, 3, ⟨.e8, 2, 1, .rnu⟩⟩] = true := by decide

theorem witness_WideningMultiplyResults_runs : runAll [
    .vwmuluVV ⟨true, 4, 1, 2, ⟨.e8, 1, 1, .rnu⟩⟩, .vwmuluVX ⟨true, 4, 2, ⟨.e8, 1, 1, .rnu⟩⟩,
    .vwmulVV ⟨true, 4, 1, 2, ⟨.e8, 1, 1, .rnu⟩⟩, .vwmulVX ⟨true, 4, 2, ⟨.e8, 1, 1, .rnu⟩⟩,
    .vwmulsuVV ⟨true, 4, 1, 2, ⟨.e8, 1, 1, .rnu⟩⟩, .vwmulsuVX ⟨true, 4, 2, ⟨.e8, 1, 1, .rnu⟩⟩] = true := by decide

theorem witness_WideningMultiplyResults_fails : failAll [
    .vwmuluVV ⟨true, 3, 2, 3, ⟨.e8, 2, 1, .rnu⟩⟩, .vwmuluVX ⟨true, 3, 3, ⟨.e8, 2, 1, .rnu⟩⟩,
    .vwmulVV ⟨true, 3, 2, 3, ⟨.e8, 2, 1, .rnu⟩⟩, .vwmulVX ⟨true, 3, 3, ⟨.e8, 2, 1, .rnu⟩⟩,
    .vwmulsuVV ⟨true, 3, 2, 3, ⟨.e8, 2, 1, .rnu⟩⟩, .vwmulsuVX ⟨true, 3, 3, ⟨.e8, 2, 1, .rnu⟩⟩] = true := by decide

theorem witness_MultiplyAccumulateResults_runs : runAll [
    .vmaccVV ⟨true, 3, 1, 2, ⟨.e8, 1, 1, .rnu⟩⟩, .vmaccVX ⟨true, 3, 2, ⟨.e8, 1, 1, .rnu⟩⟩,
    .vnmsacVV ⟨true, 3, 1, 2, ⟨.e8, 1, 1, .rnu⟩⟩, .vnmsacVX ⟨true, 3, 2, ⟨.e8, 1, 1, .rnu⟩⟩,
    .vmaddVV ⟨true, 3, 1, 2, ⟨.e8, 1, 1, .rnu⟩⟩, .vmaddVX ⟨true, 3, 2, ⟨.e8, 1, 1, .rnu⟩⟩,
    .vnmsubVV ⟨true, 3, 1, 2, ⟨.e8, 1, 1, .rnu⟩⟩, .vnmsubVX ⟨true, 3, 2, ⟨.e8, 1, 1, .rnu⟩⟩] = true := by decide

theorem witness_MultiplyAccumulateResults_fails : failAll [
    .vmaccVV ⟨true, 3, 2, 3, ⟨.e8, 2, 1, .rnu⟩⟩, .vmaccVX ⟨true, 3, 3, ⟨.e8, 2, 1, .rnu⟩⟩,
    .vnmsacVV ⟨true, 3, 2, 3, ⟨.e8, 2, 1, .rnu⟩⟩, .vnmsacVX ⟨true, 3, 3, ⟨.e8, 2, 1, .rnu⟩⟩,
    .vmaddVV ⟨true, 3, 2, 3, ⟨.e8, 2, 1, .rnu⟩⟩, .vmaddVX ⟨true, 3, 3, ⟨.e8, 2, 1, .rnu⟩⟩,
    .vnmsubVV ⟨true, 3, 2, 3, ⟨.e8, 2, 1, .rnu⟩⟩, .vnmsubVX ⟨true, 3, 3, ⟨.e8, 2, 1, .rnu⟩⟩] = true := by decide

theorem witness_WideningMultiplyAccumulateResults_runs : runAll [
    .vwmaccuVV ⟨true, 4, 1, 2, ⟨.e8, 1, 1, .rnu⟩⟩, .vwmaccuVX ⟨true, 4, 2, ⟨.e8, 1, 1, .rnu⟩⟩,
    .vwmaccVV ⟨true, 4, 1, 2, ⟨.e8, 1, 1, .rnu⟩⟩, .vwmaccVX ⟨true, 4, 2, ⟨.e8, 1, 1, .rnu⟩⟩,
    .vwmaccsuVV ⟨true, 4, 1, 2, ⟨.e8, 1, 1, .rnu⟩⟩, .vwmaccsuVX ⟨true, 4, 2, ⟨.e8, 1, 1, .rnu⟩⟩,
    .vwmaccusVX ⟨true, 4, 2, ⟨.e8, 1, 1, .rnu⟩⟩] = true := by decide

theorem witness_WideningMultiplyAccumulateResults_fails : failAll [
    .vwmaccuVV ⟨true, 3, 2, 3, ⟨.e8, 2, 1, .rnu⟩⟩, .vwmaccuVX ⟨true, 3, 3, ⟨.e8, 2, 1, .rnu⟩⟩,
    .vwmaccVV ⟨true, 3, 2, 3, ⟨.e8, 2, 1, .rnu⟩⟩, .vwmaccVX ⟨true, 3, 3, ⟨.e8, 2, 1, .rnu⟩⟩,
    .vwmaccsuVV ⟨true, 3, 2, 3, ⟨.e8, 2, 1, .rnu⟩⟩, .vwmaccsuVX ⟨true, 3, 3, ⟨.e8, 2, 1, .rnu⟩⟩,
    .vwmaccusVX ⟨true, 3, 3, ⟨.e8, 2, 1, .rnu⟩⟩] = true := by decide

theorem witness_EqualityAndUnsignedComparisonResults_runs : runAll [
    .vmseqVV ⟨true, 3, 1, 2, ⟨.e8, 1, 1, .rnu⟩⟩, .vmseqVX ⟨true, 3, 2, ⟨.e8, 1, 1, .rnu⟩⟩,
    .vmseqVI ⟨true, 3, 1, 2, ⟨.e8, 1, 1, .rnu⟩⟩, .vmsneVV ⟨true, 3, 1, 2, ⟨.e8, 1, 1, .rnu⟩⟩,
    .vmsneVX ⟨true, 3, 2, ⟨.e8, 1, 1, .rnu⟩⟩, .vmsneVI ⟨true, 3, 1, 2, ⟨.e8, 1, 1, .rnu⟩⟩,
    .vmsltuVV ⟨true, 3, 1, 2, ⟨.e8, 1, 1, .rnu⟩⟩, .vmsltuVX ⟨true, 3, 2, ⟨.e8, 1, 1, .rnu⟩⟩,
    .vmsltuVI ⟨true, 3, 1, 2, ⟨.e8, 1, 1, .rnu⟩⟩, .vmsleuVV ⟨true, 3, 1, 2, ⟨.e8, 1, 1, .rnu⟩⟩,
    .vmsleuVX ⟨true, 3, 2, ⟨.e8, 1, 1, .rnu⟩⟩, .vmsleuVI ⟨true, 3, 1, 2, ⟨.e8, 1, 1, .rnu⟩⟩,
    .vmsgtuVV ⟨true, 3, 1, 2, ⟨.e8, 1, 1, .rnu⟩⟩, .vmsgtuVX ⟨true, 3, 2, ⟨.e8, 1, 1, .rnu⟩⟩,
    .vmsgtuVI ⟨true, 3, 1, 2, ⟨.e8, 1, 1, .rnu⟩⟩, .vmsgeuVV ⟨true, 3, 1, 2, ⟨.e8, 1, 1, .rnu⟩⟩,
    .vmsgeuVX ⟨true, 3, 2, ⟨.e8, 1, 1, .rnu⟩⟩, .vmsgeuVI ⟨true, 3, 1, 2, ⟨.e8, 1, 1, .rnu⟩⟩] = true := by decide

theorem witness_EqualityAndUnsignedComparisonResults_fails : failAll [
    .vmseqVV ⟨true, 3, 2, 3, ⟨.e8, 2, 1, .rnu⟩⟩, .vmseqVX ⟨true, 3, 3, ⟨.e8, 2, 1, .rnu⟩⟩,
    .vmseqVI ⟨true, 3, 2, 3, ⟨.e8, 2, 1, .rnu⟩⟩, .vmsneVV ⟨true, 3, 2, 3, ⟨.e8, 2, 1, .rnu⟩⟩,
    .vmsneVX ⟨true, 3, 3, ⟨.e8, 2, 1, .rnu⟩⟩, .vmsneVI ⟨true, 3, 2, 3, ⟨.e8, 2, 1, .rnu⟩⟩,
    .vmsltuVV ⟨true, 3, 2, 3, ⟨.e8, 2, 1, .rnu⟩⟩, .vmsltuVX ⟨true, 3, 3, ⟨.e8, 2, 1, .rnu⟩⟩,
    .vmsltuVI ⟨true, 3, 2, 3, ⟨.e8, 2, 1, .rnu⟩⟩, .vmsleuVV ⟨true, 3, 2, 3, ⟨.e8, 2, 1, .rnu⟩⟩,
    .vmsleuVX ⟨true, 3, 3, ⟨.e8, 2, 1, .rnu⟩⟩, .vmsleuVI ⟨true, 3, 2, 3, ⟨.e8, 2, 1, .rnu⟩⟩,
    .vmsgtuVV ⟨true, 3, 2, 3, ⟨.e8, 2, 1, .rnu⟩⟩, .vmsgtuVX ⟨true, 3, 3, ⟨.e8, 2, 1, .rnu⟩⟩,
    .vmsgtuVI ⟨true, 3, 2, 3, ⟨.e8, 2, 1, .rnu⟩⟩, .vmsgeuVV ⟨true, 3, 2, 3, ⟨.e8, 2, 1, .rnu⟩⟩,
    .vmsgeuVX ⟨true, 3, 3, ⟨.e8, 2, 1, .rnu⟩⟩, .vmsgeuVI ⟨true, 3, 2, 3, ⟨.e8, 2, 1, .rnu⟩⟩] = true := by decide

theorem witness_SignedComparisonResults_runs : runAll [
    .vmsltVV ⟨true, 3, 1, 2, ⟨.e8, 1, 1, .rnu⟩⟩, .vmsltVX ⟨true, 3, 2, ⟨.e8, 1, 1, .rnu⟩⟩,
    .vmsltVI ⟨true, 3, 1, 2, ⟨.e8, 1, 1, .rnu⟩⟩, .vmsleVV ⟨true, 3, 1, 2, ⟨.e8, 1, 1, .rnu⟩⟩,
    .vmsleVX ⟨true, 3, 2, ⟨.e8, 1, 1, .rnu⟩⟩, .vmsleVI ⟨true, 3, 1, 2, ⟨.e8, 1, 1, .rnu⟩⟩,
    .vmsgtVV ⟨true, 3, 1, 2, ⟨.e8, 1, 1, .rnu⟩⟩, .vmsgtVX ⟨true, 3, 2, ⟨.e8, 1, 1, .rnu⟩⟩,
    .vmsgtVI ⟨true, 3, 1, 2, ⟨.e8, 1, 1, .rnu⟩⟩, .vmsgeVV ⟨true, 3, 1, 2, ⟨.e8, 1, 1, .rnu⟩⟩,
    .vmsgeVX ⟨true, 3, 2, ⟨.e8, 1, 1, .rnu⟩⟩, .vmsgeVI ⟨true, 3, 1, 2, ⟨.e8, 1, 1, .rnu⟩⟩] = true := by decide

theorem witness_SignedComparisonResults_fails : failAll [
    .vmsltVV ⟨true, 3, 2, 3, ⟨.e8, 2, 1, .rnu⟩⟩, .vmsltVX ⟨true, 3, 3, ⟨.e8, 2, 1, .rnu⟩⟩,
    .vmsltVI ⟨true, 3, 2, 3, ⟨.e8, 2, 1, .rnu⟩⟩, .vmsleVV ⟨true, 3, 2, 3, ⟨.e8, 2, 1, .rnu⟩⟩,
    .vmsleVX ⟨true, 3, 3, ⟨.e8, 2, 1, .rnu⟩⟩, .vmsleVI ⟨true, 3, 2, 3, ⟨.e8, 2, 1, .rnu⟩⟩,
    .vmsgtVV ⟨true, 3, 2, 3, ⟨.e8, 2, 1, .rnu⟩⟩, .vmsgtVX ⟨true, 3, 3, ⟨.e8, 2, 1, .rnu⟩⟩,
    .vmsgtVI ⟨true, 3, 2, 3, ⟨.e8, 2, 1, .rnu⟩⟩, .vmsgeVV ⟨true, 3, 2, 3, ⟨.e8, 2, 1, .rnu⟩⟩,
    .vmsgeVX ⟨true, 3, 3, ⟨.e8, 2, 1, .rnu⟩⟩, .vmsgeVI ⟨true, 3, 2, 3, ⟨.e8, 2, 1, .rnu⟩⟩] = true := by decide

theorem witness_AddWithCarryResults_runs : runAll [
    .vadcVVM ⟨true, 3, 1, 2, ⟨.e8, 1, 1, .rnu⟩⟩, .vadcVXM ⟨true, 3, 2, ⟨.e8, 1, 1, .rnu⟩⟩,
    .vadcVIM ⟨true, 3, 1, 2, ⟨.e8, 1, 1, .rnu⟩⟩, .vsbcVVM ⟨true, 3, 1, 2, ⟨.e8, 1, 1, .rnu⟩⟩,
    .vsbcVXM ⟨true, 3, 2, ⟨.e8, 1, 1, .rnu⟩⟩] = true := by decide

theorem witness_AddWithCarryResults_fails : failAll [
    .vadcVVM ⟨true, 3, 2, 3, ⟨.e8, 2, 1, .rnu⟩⟩, .vadcVXM ⟨true, 3, 3, ⟨.e8, 2, 1, .rnu⟩⟩,
    .vadcVIM ⟨true, 3, 2, 3, ⟨.e8, 2, 1, .rnu⟩⟩, .vsbcVVM ⟨true, 3, 2, 3, ⟨.e8, 2, 1, .rnu⟩⟩,
    .vsbcVXM ⟨true, 3, 3, ⟨.e8, 2, 1, .rnu⟩⟩] = true := by decide

theorem witness_CarryAndBorrowProducerResults_runs : runAll [
    .vmadcVV ⟨3, 1, 2, ⟨.e8, 1, 1, .rnu⟩⟩, .vmadcVVM ⟨3, 1, 2, ⟨.e8, 1, 1, .rnu⟩⟩,
    .vmadcVX ⟨3, 2, ⟨.e8, 1, 1, .rnu⟩⟩, .vmadcVXM ⟨3, 2, ⟨.e8, 1, 1, .rnu⟩⟩,
    .vmadcVI ⟨3, 1, 2, ⟨.e8, 1, 1, .rnu⟩⟩, .vmadcVIM ⟨3, 1, 2, ⟨.e8, 1, 1, .rnu⟩⟩,
    .vmsbcVV ⟨3, 1, 2, ⟨.e8, 1, 1, .rnu⟩⟩, .vmsbcVVM ⟨3, 1, 2, ⟨.e8, 1, 1, .rnu⟩⟩,
    .vmsbcVX ⟨3, 2, ⟨.e8, 1, 1, .rnu⟩⟩, .vmsbcVXM ⟨3, 2, ⟨.e8, 1, 1, .rnu⟩⟩] = true := by decide

theorem witness_CarryAndBorrowProducerResults_fails : failAll [
    .vmadcVV ⟨3, 2, 3, ⟨.e8, 2, 1, .rnu⟩⟩, .vmadcVVM ⟨3, 2, 3, ⟨.e8, 2, 1, .rnu⟩⟩,
    .vmadcVX ⟨3, 3, ⟨.e8, 2, 1, .rnu⟩⟩, .vmadcVXM ⟨3, 3, ⟨.e8, 2, 1, .rnu⟩⟩,
    .vmadcVI ⟨3, 2, 3, ⟨.e8, 2, 1, .rnu⟩⟩, .vmadcVIM ⟨3, 2, 3, ⟨.e8, 2, 1, .rnu⟩⟩,
    .vmsbcVV ⟨3, 2, 3, ⟨.e8, 2, 1, .rnu⟩⟩, .vmsbcVVM ⟨3, 2, 3, ⟨.e8, 2, 1, .rnu⟩⟩,
    .vmsbcVX ⟨3, 3, ⟨.e8, 2, 1, .rnu⟩⟩, .vmsbcVXM ⟨3, 3, ⟨.e8, 2, 1, .rnu⟩⟩] = true := by decide

theorem witness_MergeResults_runs : runAll [
    .vmergeVVM ⟨true, 3, 1, 2, ⟨.e8, 1, 1, .rnu⟩⟩, .vmergeVXM ⟨true, 3, 2, ⟨.e8, 1, 1, .rnu⟩⟩,
    .vmergeVIM ⟨true, 3, 1, 2, ⟨.e8, 1, 1, .rnu⟩⟩] = true := by decide

theorem witness_MergeResults_fails : failAll [
    .vmergeVVM ⟨true, 3, 2, 3, ⟨.e8, 2, 1, .rnu⟩⟩, .vmergeVXM ⟨true, 3, 3, ⟨.e8, 2, 1, .rnu⟩⟩,
    .vmergeVIM ⟨true, 3, 2, 3, ⟨.e8, 2, 1, .rnu⟩⟩] = true := by decide

theorem witness_MoveResults_runs : runAll [
    .vmvVV ⟨true, 3, 1, ⟨.e8, 1, 1, .rnu⟩⟩, .vmvVX ⟨true, 3, ⟨.e8, 1, 1, .rnu⟩⟩,
    .vmvVI ⟨true, 3, 1, ⟨.e8, 1, 1, .rnu⟩⟩] = true := by decide

theorem witness_MoveResults_fails : failAll [
    .vmvVV ⟨true, 3, 2, ⟨.e8, 2, 1, .rnu⟩⟩, .vmvVX ⟨true, 3, ⟨.e8, 2, 1, .rnu⟩⟩,
    .vmvVI ⟨true, 3, 2, ⟨.e8, 2, 1, .rnu⟩⟩] = true := by decide

theorem witness_SlideResults_runs : runAll [
    .vslideupVX ⟨true, 3, 2, ⟨.e8, 1, 1, .rnu⟩⟩, .vslideupVI ⟨true, 3, 1, 2, ⟨.e8, 1, 1, .rnu⟩⟩,
    .vslidedownVX ⟨true, 3, 2, ⟨.e8, 1, 1, .rnu⟩⟩, .vslidedownVI ⟨true, 3, 1, 2, ⟨.e8, 1, 1, .rnu⟩⟩,
    .vslide1upVX ⟨true, 3, 2, ⟨.e8, 1, 1, .rnu⟩⟩, .vslide1downVX ⟨true, 3, 2, ⟨.e8, 1, 1, .rnu⟩⟩] = true := by decide

theorem witness_SlideResults_fails : failAll [
    .vslideupVX ⟨true, 3, 3, ⟨.e8, 2, 1, .rnu⟩⟩, .vslideupVI ⟨true, 3, 2, 3, ⟨.e8, 2, 1, .rnu⟩⟩,
    .vslidedownVX ⟨true, 3, 3, ⟨.e8, 2, 1, .rnu⟩⟩, .vslidedownVI ⟨true, 3, 2, 3, ⟨.e8, 2, 1, .rnu⟩⟩,
    .vslide1upVX ⟨true, 3, 3, ⟨.e8, 2, 1, .rnu⟩⟩, .vslide1downVX ⟨true, 3, 3, ⟨.e8, 2, 1, .rnu⟩⟩] = true := by decide

theorem witness_SaturatingResults_runs : runAll [
    .vsadduVV ⟨true, 3, 1, 2, ⟨.e8, 1, 1, .rnu⟩⟩, .vsadduVX ⟨true, 3, 2, ⟨.e8, 1, 1, .rnu⟩⟩,
    .vsadduVI ⟨true, 3, 1, 2, ⟨.e8, 1, 1, .rnu⟩⟩, .vsaddVV ⟨true, 3, 1, 2, ⟨.e8, 1, 1, .rnu⟩⟩,
    .vsaddVX ⟨true, 3, 2, ⟨.e8, 1, 1, .rnu⟩⟩, .vsaddVI ⟨true, 3, 1, 2, ⟨.e8, 1, 1, .rnu⟩⟩,
    .vssubuVV ⟨true, 3, 1, 2, ⟨.e8, 1, 1, .rnu⟩⟩, .vssubuVX ⟨true, 3, 2, ⟨.e8, 1, 1, .rnu⟩⟩,
    .vssubVV ⟨true, 3, 1, 2, ⟨.e8, 1, 1, .rnu⟩⟩, .vssubVX ⟨true, 3, 2, ⟨.e8, 1, 1, .rnu⟩⟩] = true := by decide

theorem witness_SaturatingResults_fails : failAll [
    .vsadduVV ⟨true, 3, 2, 3, ⟨.e8, 2, 1, .rnu⟩⟩, .vsadduVX ⟨true, 3, 3, ⟨.e8, 2, 1, .rnu⟩⟩,
    .vsadduVI ⟨true, 3, 2, 3, ⟨.e8, 2, 1, .rnu⟩⟩, .vsaddVV ⟨true, 3, 2, 3, ⟨.e8, 2, 1, .rnu⟩⟩,
    .vsaddVX ⟨true, 3, 3, ⟨.e8, 2, 1, .rnu⟩⟩, .vsaddVI ⟨true, 3, 2, 3, ⟨.e8, 2, 1, .rnu⟩⟩,
    .vssubuVV ⟨true, 3, 2, 3, ⟨.e8, 2, 1, .rnu⟩⟩, .vssubuVX ⟨true, 3, 3, ⟨.e8, 2, 1, .rnu⟩⟩,
    .vssubVV ⟨true, 3, 2, 3, ⟨.e8, 2, 1, .rnu⟩⟩, .vssubVX ⟨true, 3, 3, ⟨.e8, 2, 1, .rnu⟩⟩] = true := by decide

theorem witness_AveragingResults_runs : runAll [
    .vaadduVV ⟨true, 3, 1, 2, ⟨.e8, 1, 1, .rnu⟩⟩, .vaadduVX ⟨true, 3, 2, ⟨.e8, 1, 1, .rnu⟩⟩,
    .vaaddVV ⟨true, 3, 1, 2, ⟨.e8, 1, 1, .rnu⟩⟩, .vaaddVX ⟨true, 3, 2, ⟨.e8, 1, 1, .rnu⟩⟩,
    .vasubuVV ⟨true, 3, 1, 2, ⟨.e8, 1, 1, .rnu⟩⟩, .vasubuVX ⟨true, 3, 2, ⟨.e8, 1, 1, .rnu⟩⟩,
    .vasubVV ⟨true, 3, 1, 2, ⟨.e8, 1, 1, .rnu⟩⟩, .vasubVX ⟨true, 3, 2, ⟨.e8, 1, 1, .rnu⟩⟩] = true := by decide

theorem witness_AveragingResults_fails : failAll [
    .vaadduVV ⟨true, 3, 2, 3, ⟨.e8, 2, 1, .rnu⟩⟩, .vaadduVX ⟨true, 3, 3, ⟨.e8, 2, 1, .rnu⟩⟩,
    .vaaddVV ⟨true, 3, 2, 3, ⟨.e8, 2, 1, .rnu⟩⟩, .vaaddVX ⟨true, 3, 3, ⟨.e8, 2, 1, .rnu⟩⟩,
    .vasubuVV ⟨true, 3, 2, 3, ⟨.e8, 2, 1, .rnu⟩⟩, .vasubuVX ⟨true, 3, 3, ⟨.e8, 2, 1, .rnu⟩⟩,
    .vasubVV ⟨true, 3, 2, 3, ⟨.e8, 2, 1, .rnu⟩⟩, .vasubVX ⟨true, 3, 3, ⟨.e8, 2, 1, .rnu⟩⟩] = true := by decide

/-- A good `vadd.vv`, a misaligned one (`vs1 = v5` at `LMUL = 2`), a hazardous one and one that is not admitted. -/
def addGood : Instr := .vaddVV ⟨true, 3, 1, 2, ⟨.e8, 1, 1, .rnu⟩⟩
def addFails : Instr := .vaddVV ⟨true, 2, 5, 4, ⟨.e8, 2, 1, .rnu⟩⟩
def addHazard : Instr := .vaddVV ⟨true, 0, 1, 2, ⟨.e8, 1, 1, .rnu⟩⟩
def addRefused : Instr := .vaddVV ⟨true, 3, 1, 2, ⟨.e8, 3, 1, .rnu⟩⟩

/-- `exec` answers a next state with this response. -/
def responds (i : Instr) (s : State) (r : Response) : Bool :=
  match exec i s with
  | .next t => decide (t.response = some r)
  | .fault _ | .refused _ => false

/-- `exec` is refused for this reason. -/
def execRefuses (i : Instr) (s : State) (r : Refusal) : Bool :=
  match exec i s with
  | .refused r' => decide (r' = r)
  | .next _ | .fault _ => false

theorem witness_AcceptedDescriptorHasOneMeaning : decodesAll [(0x0000000110411C00, addGood)] = true ∧
    encode addGood = 0x0000000110411C00 := by decide

/-- One reserved word for each reason of R82, on the port of a state whose host presents it. -/
theorem witness_ReservedDescriptorsAreExactlyTheRefusedOnes :
    refuses (stateWith .x64 [] 0x0000004110411800 0 0 0) (.reservedDescriptor .reservedBits) = true ∧
    refuses (stateWith .x64 [] 0x0000000110411B00 0 0 0) (.reservedDescriptor .reservedForm) = true ∧
    refuses (stateWith .x64 [] 0x000000011041180D 0 0 0) (.reservedDescriptor .reservedOp) = true ∧
    refuses (stateWith .x64 [] 0x0000000110411802 0 0 0) (.reservedDescriptor .reservedPair) = true ∧
    refuses (stateWith .x64 [] 0x0000000110411900 0 0 0) (.reservedDescriptor .nonzeroVs1) = true ∧
    refuses (stateWith .x64 [] 0x0000000110411861 0 0 0) (.reservedDescriptor .nonzeroVs2) = true := by decide

/-- Canonical memories, a read and a write of four bytes, the first and last byte and the bytes beside them. -/
theorem witness_ElementBytesAreLittleEndian :
    Memory.wf [(15, 9), (16, 0x44), (19, 0x11), (20, 8)] = true ∧
    Memory.memRead [(15, 9), (16, 0x44), (19, 0x11), (20, 8)] 16 4 = 0x11000044 ∧
    Memory.memWrite [(15, 9), (16, 0x44), (19, 0x11), (20, 8)] 16 4 0x00050003 =
      [(15, 9), (16, 3), (18, 5), (20, 8)] := by decide

/-- Bits 7 and 8 of register 1: the last of one byte, the first of the next. -/
theorem witness_BitWriteLeavesTheOtherBits :
    Memory.wf [(16, 0x80), (17, 0x02)] = true ∧ readBit 16 [(16, 0x80), (17, 0x02)] 1 7 = true ∧
    writeBit 16 [(16, 0x80), (17, 0x02)] 1 8 true = [(16, 0x80), (17, 0x03)] ∧
    writeBit 16 [(16, 0x80), (17, 0x02)] 1 7 false = [(17, 0x02)] := by decide

theorem witness_EqualRegisterFilesAreEqualData :
    ∃ m m' : Memory, m ≠ [] ∧ Memory.wf m = true ∧ Memory.wf m' = true ∧ ∀ x, Memory.read m x = Memory.read m' x :=
  ⟨[(3, 5), (9, 1)], Memory.writeBytes [] 3 [5, 0, 0, 0, 0, 0, 1], by decide, by decide, by decide, fun _ => rfl⟩

/-- Aligned and not, below 1, at 1 and at 8. -/
theorem witness_AlignedMeansDivisibleByTheCeiling :
    aligned 3 ⟨1, 2⟩ = true ∧ aligned 3 ⟨1, 1⟩ = true ∧ aligned 24 ⟨8, 1⟩ = true ∧ aligned 31 ⟨8, 1⟩ = false := by decide

/-- The last element of the last group (`VL = VLMAX = 128`, `LMUL = 8`, `vd = v24`), a widening, a mask destination `v31`. -/
theorem witness_ValidatedAccessesStayInTheirGroup :
    let s : State := { State.reset with port := ⟨0, 128, 0, 0⟩ }
    let w : State := { State.reset with port := ⟨0, 32, 0, 0⟩ }
    (Admitted (planOf (.vaddVV ⟨false, 24, 8, 16, ⟨.e8, 8, 1, .rnu⟩⟩)) s ∧
      validate (planOf (.vaddVV ⟨false, 24, 8, 16, ⟨.e8, 8, 1, .rnu⟩⟩)) = .noExcept ∧ 127 < s.port.vl) ∧
    (Admitted (planOf (.vwaddVV ⟨false, 24, 8, 16, ⟨.e16, 4, 1, .rnu⟩⟩)) w ∧
      validate (planOf (.vwaddVV ⟨false, 24, 8, 16, ⟨.e16, 4, 1, .rnu⟩⟩)) = .noExcept ∧ 31 < w.port.vl) ∧
    (Admitted (planOf (.vmseqVV ⟨false, 31, 8, 16, ⟨.e8, 8, 1, .rnu⟩⟩)) s ∧
      validate (planOf (.vmseqVV ⟨false, 31, 8, 16, ⟨.e8, 8, 1, .rnu⟩⟩)) = .noExcept) := by decide

/-- Admitted multiplicities, aligned groups that may share registers and that may not. -/
theorem witness_OverlapRulesSayWhichRegistersMayBeShared :
    ((⟨1, 1⟩ : Mult) ∈ admittedPairs ∧ (⟨1, 8⟩ : Mult) ∈ admittedPairs ∧ (⟨8, 1⟩ : Mult) ∈ admittedPairs) ∧
    (aligned 8 ((⟨1, 1⟩ : Mult).times 2) = true ∧ aligned 9 ⟨1, 1⟩ = true ∧ widenOk 8 9 ⟨1, 1⟩ ⟨2, 1⟩ = true ∧
      widenOk 8 8 ⟨1, 1⟩ ⟨2, 1⟩ = false ∧ widenOk 8 8 ⟨1, 2⟩ ⟨2, 2⟩ = false) ∧
    (widenOk 8 11 ⟨4, 4⟩ ⟨4, 1⟩ = true ∧ widenOk 8 10 ⟨4, 4⟩ ⟨4, 1⟩ = false) ∧
    (narrowOk 8 8 ⟨1, 1⟩ ⟨2, 1⟩ = true ∧ narrowOk 9 8 ⟨1, 1⟩ ⟨2, 1⟩ = false) := by decide

/-- Form V and form X operands whose first failing check is each of the codes. -/
theorem witness_FirstFailingCheckGivesTheStatus :
    (argsVV ⟨false, 3, 7, 5, ⟨.e8, 2, 1, .rnu⟩⟩).rhs = .vec 7 ∧
    validate (maskedPlan .same (argsVV ⟨false, 3, 7, 5, ⟨.e8, 2, 1, .rnu⟩⟩)) = .src1VecIll ∧
    (argsVX ⟨false, 3, 5, ⟨.e8, 2, 1, .rnu⟩⟩).rhs.reg = none ∧
    validate (maskedPlan .same (argsVX ⟨false, 3, 5, ⟨.e8, 2, 1, .rnu⟩⟩)) = .src2VecIll ∧
    validate (maskedPlan .same (argsVX ⟨false, 3, 4, ⟨.e8, 2, 1, .rnu⟩⟩)) = .dstVecIll ∧
    validate (maskedPlan .widen (argsVV ⟨false, 8, 9, 8, ⟨.e8, 1, 1, .rnu⟩⟩)) = .wideningOverlapVdVs2Ill ∧
    validate (maskedPlan .narrow (argsVX ⟨false, 9, 8, ⟨.e8, 1, 1, .rnu⟩⟩)) = .narrowingOverlapVdVs2Ill ∧
    validate (movePlan (argsMvV ⟨false, 3, 5, ⟨.e8, 2, 1, .rnu⟩⟩)) = .src1VecIll ∧
    validate (movePlan (argsMvX ⟨false, 3, ⟨.e8, 2, 1, .rnu⟩⟩)) = .dstVecIll := by decide

/-- Two descriptors that differ in `me` and `vxrm`; a failing instruction in two states that share nothing. -/
theorem witness_StatusDoesNotDependOnData :
    let f : Fields := ⟨0x52, 0, false, 3, 1, 2, 0, 1, 1, 0, 0⟩
    decodeFields f = .ok (.vmadcVV ⟨3, 1, 2, ⟨.e8, 1, 1, .rnu⟩⟩) ∧
    decodeFields { f with me := true, vxrm := 3 } = .ok (.vmadcVVM ⟨3, 1, 2, ⟨.e8, 1, 1, .rod⟩⟩) ∧
    Admitted (planOf addFails) sample ∧ Admitted (planOf addFails) State.reset ∧
    responds addFails sample ⟨.src1VecIll, false⟩ = true := by decide

theorem witness_FailingRequestChangesOnlyTheResponse :
    Admitted (planOf addFails) sample ∧ validate (planOf addFails) ≠ .noExcept ∧
    responds addFails sample ⟨.src1VecIll, false⟩ = true := by decide

/-- One request for each of the five ends of R314; `VL` at `VLMAX` is admitted, above it refused. -/
theorem witness_RequestsFollowTheProtocol :
    cfgError (planOf addRefused).cls (planOf addRefused).cfg = some .multiplicity ∧
    (cfgError (planOf addGood).cls (planOf addGood).cfg = none ∧ vlmax State.reset.params (planOf addGood).cfg < 17 ∧
      execRefuses addGood { sample with port := ⟨0, 17, 0, 0⟩ } .vectorLength = true) ∧
    Admitted (planOf addGood) { sample with port := ⟨0, 16, 0, 0⟩ } ∧
    (Admitted (planOf addFails) sample ∧ validate (planOf addFails) ≠ .noExcept) ∧
    (Admitted (planOf addHazard) sample ∧ validate (planOf addHazard) = .noExcept ∧
      hazard (planOf addHazard) = some .v0Destination) ∧
    Runs (planOf addGood) sample := by decide

/-- Classes other than MASKDST, and a mask destination one register below, at, inside and above a source group of two. -/
theorem witness_HazardsAreTheThreeUncheckedOverlaps :
    VClass.same ≠ .maskDst ∧ VClass.widen ≠ .maskDst ∧ VClass.narrow ≠ .maskDst ∧
    cfgError .maskDst (⟨.e8, 2, 1, .rnu⟩ : Cfg) = none ∧
    hazard (maskedPlan .maskDst (argsVX ⟨false, 3, 4, ⟨.e8, 2, 1, .rnu⟩⟩)) = none ∧
    hazard (maskedPlan .maskDst (argsVX ⟨false, 4, 4, ⟨.e8, 2, 1, .rnu⟩⟩)) = none ∧
    hazard (maskedPlan .maskDst (argsVX ⟨false, 5, 4, ⟨.e8, 2, 1, .rnu⟩⟩)) = some .maskInsideSource ∧
    hazard (maskedPlan .maskDst (argsVX ⟨false, 6, 4, ⟨.e8, 2, 1, .rnu⟩⟩)) = none := by decide

/-- Both scalar widths, the most negative immediate and the largest one, operands that do not depend on the index. -/
theorem witness_RightOperandOfEachForm :
    let s64 : State := { sample with port := ⟨0, 3, 0, 0xFFFFFFFF80000000⟩ }
    let s32 : State := { sample with params := ⟨1, .x32⟩, port := ⟨0, 3, 0, 0x1234567880000000⟩ }
    s64.params.xlen = .x64 ∧ s32.params.xlen = .x32 ∧
    rhsValue s64 [] .scalar 0 8 = 0xFFFFFFFF80000000 ∧ rhsValue s32 [] .scalar 0 8 = 0xFFFFFFFF80000000 ∧
    rhsValue s64 [] (.simm 16) 0 1 = 0xF0 ∧ rhsValue s64 [] (.uimm 31) 0 1 = 31 ∧
    Rhs.scalar.reg = none ∧ (Rhs.simm 16).reg = none ∧ (Rhs.uimm 31).reg = none := by decide

/-- Two scalars that differ in the upper half, a request that is carried out and one that is refused. -/
theorem witness_UpperScalarBitsAreIgnoredAtXlen32 :
    let s : State := { sample with params := ⟨1, .x32⟩, port := ⟨0, 3, 0, 7⟩ }
    s.params.xlen = .x32 ∧ (0xABCD000000000007 : Scalar).setWidth 32 = s.port.rs1.setWidth 32 ∧
    responds (.vaddVX ⟨false, 3, 2, ⟨.e64, 2, 1, .rnu⟩⟩) s ⟨.dstVecIll, false⟩ = true ∧
    responds (.vaddVX ⟨false, 4, 2, ⟨.e64, 2, 1, .rnu⟩⟩) s ⟨.noExcept, false⟩ = true ∧
    execRefuses addRefused s (.notAdmitted .multiplicity) = true := by decide

/-- The smallest slide-up index that is written, at an offset equal to it; offset 0 and one past `VL`. -/
theorem witness_SlideResults_boundary :
    let s : State := { sample with port := ⟨0, 3, 0, 1⟩ }
    Touched s true 1 ∧ s.port.rs1.toNat % 2 ^ s.params.xlen.bits = 1 ∧
    ¬ Touched s true s.port.vl ∧ Touched s true 0 := by decide

/-- Saturated and unsaturated written elements of one request. -/
theorem witness_SaturatingResults_flag :
    responds (.vsadduVV ⟨true, 3, 1, 2, ⟨.e8, 1, 1, .rnu⟩⟩) sample ⟨.noExcept, true⟩ = true ∧
    responds (.vsaddVV ⟨true, 3, 1, 2, ⟨.e32, 1, 1, .rnu⟩⟩) sample ⟨.noExcept, false⟩ = true := by decide

theorem witness_CarryAndBorrowBitEquations :
    8 ∈ [8, 16, 32, 64] ∧ 64 ∈ [8, 16, 32, 64] ∧ vmadcBit 8 255 0 true = true ∧ vmadcBit 8 255 0 false = false ∧
    vmsbcBit 8 0 0 true = true ∧ vmsbcBit 8 0 0 false = false := by decide

theorem witness_RoundingModesRoundAsNamed :
    (4 : Int) % 2 = 0 ∧ (-3 : Int) % 2 = 1 ∧ average .rnu (-3) = -1 ∧ average .rne (-3) = -2 ∧ average .rdn (-3) = -2 ∧
    average .rod (-3) = -1 := by decide

theorem witness_SignedDivisionIdentity :
    0 < 8 ∧ (0xFE : BitVec 8).toInt ≠ 0 ∧ ¬ ((0xF9 : BitVec 8).toInt = -2 ^ (8 - 1) ∧ (0xFE : BitVec 8).toInt = -1) ∧
    vdivElem 8 0xF9 0xFE = 3 ∧ vremElem 8 0xF9 0xFE = 0xFF := by decide

/-- `VSTART = VL`, and a merge with `VL = 0`. -/
theorem witness_NothingIsWrittenFromVstartAtOrPastVl :
    (Runs (planOf addGood) { sample with port := ⟨0, 3, 3, 0⟩ } ∧ 3 ≤ 3) ∧
    (Runs (planOf (.vmergeVVM ⟨true, 3, 1, 2, ⟨.e8, 1, 1, .rnu⟩⟩)) { sample with port := ⟨0, 0, 5, 0⟩ } ∧ 0 ≤ 5) := by decide

/-- A carried-out request, and the addresses just outside its destination group `v3`. -/
theorem witness_OnlyTheDestinationGroupIsWritten :
    sample.inv ∧ responds addGood sample ⟨.noExcept, false⟩ = true ∧
    ¬ InDestination (planOf addGood) 16 47 ∧ InDestination (planOf addGood) 16 48 ∧
    InDestination (planOf addGood) 16 63 ∧ ¬ InDestination (planOf addGood) 16 64 := by decide

theorem witness_RequestsChangeOnlyRegisterFileAndResponse : responds addGood sample ⟨.noExcept, false⟩ = true := by decide

/-- Two states that agree in what a request reads and differ in all else; a next state and a refusal. -/
theorem witness_RequestIsAFunctionOfItsInputs :
    let s' : State := { sample with
      response := some ⟨.dstVecIll, true⟩
      readData := some [1]
      inputs := [.reset]
      freeCount := 4 }
    sample.params = s'.params ∧ sample.vrf = s'.vrf ∧ sample.port = s'.port ∧
    responds addGood sample ⟨.noExcept, false⟩ = true ∧
    execRefuses addRefused sample (.notAdmitted .multiplicity) = true := by decide

/-- Accesses that end at the last byte of the register file. -/
theorem witness_HostPortReadsAndWritesTheRegisterFile :
    let s : State := { sample with inputs := [.hostWrite 510 [7, 8]] }
    let r : State := { sample with inputs := [.hostRead 0 512] }
    s.inv ∧ r.inv ∧ s.inputs = .hostWrite 510 [7, 8] :: [] ∧ 510 + [7, 8].length ≤ 32 * s.params.vlenb ∧
    r.inputs = .hostRead 0 512 :: [] ∧ 0 + 512 ≤ 32 * r.params.vlenb := by decide

/-- Accesses that end one byte further. -/
theorem witness_HostAccessOutsideTheByteSpaceFaults :
    let s : State := { sample with inputs := [.hostWrite 511 [7, 8]] }
    let r : State := { sample with inputs := [.hostRead 1 512] }
    s.inputs = .hostWrite 511 [7, 8] :: [] ∧ 32 * s.params.vlenb < 511 + [7, 8].length ∧
    r.inputs = .hostRead 1 512 :: [] ∧ 32 * r.params.vlenb < 1 + 512 := by decide

theorem witness_ResetInputKeepsTheRegisterFile :
    ∃ (s : State) (rest : List HostInput), s.inputs = .reset :: rest ∧ s.response ≠ none ∧ s.vrf ≠ [] :=
  ⟨{ sample with response := some ⟨.noExcept, true⟩, inputs := [.reset, .reset] }, [.reset], by decide, by decide, by decide⟩

theorem witness_StateAfterReset : State.reset.inputs = [] ∧ sample.inputs = [] := by decide

/-- The state whose host presents a request and asserts the reset input in the middle of it. -/
def caught (r : Request) : State := { sample with inputs := [.abandoned r] }

/-- An abandoned request that would have been carried out, and one that would have failed validation. -/
theorem witness_AbandonedRequestLeavesOtherRegisters :
    let r : Request := ⟨encode addGood, 3, 1, 1⟩
    let f : Request := ⟨encode addFails, 3, 1, 1⟩
    (caught r).inv ∧ (caught r).inputs = .abandoned r :: [] ∧ decode r.req = .ok addGood ∧
    Runs (planOf addGood) { caught r with port := r } ∧
    decode f.req = .ok addFails ∧ Admitted (planOf addFails) { caught f with port := f } ∧
    validate (planOf addFails) ≠ .noExcept := by decide

/-- A request on the list of coming actions; every encoding decodes. -/
theorem witness_StepRunsTheDecodedRequest :
    let s : State := { sample with inputs := [.request ⟨encode addGood, 3, 0, 0⟩, .reset] }
    s.inputs = .request ⟨encode addGood, 3, 0, 0⟩ :: [.reset] ∧ decode (encode addGood) = .ok addGood ∧
    answers s .noExcept false [(3, [14, 44, 0])] = true := by decide

/-- Every kind of host action has a step that answers a next state from a state that meets the invariant (an abandoned
request is shown with the statement on it: what it leaves is free). -/
theorem witness_EveryStepKeepsTheInvariant :
    let req : State := { sample with inputs := [.request ⟨encode addGood, 3, 0, 0⟩] }
    let bad : State := { sample with inputs := [.request ⟨encode addFails, 3, 0, 0⟩] }
    req.inv ∧ bad.inv ∧ answers req .noExcept false [(3, [14, 44, 0])] = true ∧ reports bad .src1VecIll = true ∧
    goesTo sample sample = true ∧
    goesTo { sample with inputs := [.hostWrite 0 [0]] } { sample with vrf := sample.vrf.tail } = true ∧
    goesTo { sample with inputs := [.reset] } sample = true := by decide

theorem witness_EveryStepTakesOneActionAndKeepsTheParameters :
    goesTo { sample with inputs := [.reset, .hostRead 0 1] } { sample with inputs := [.hostRead 0 1] } = true := by decide

/-- An abandoned request leaves no response and uses one free value; the step answers a next state. -/
theorem test_abandoned :
    ∃ t, step (caught ⟨encode addGood, 3, 1, 1⟩) = .next t ∧ t.response = none ∧ t.inputs = [] ∧ t.freeCount = 1 :=
  ⟨_, rfl, rfl, rfl, rfl⟩

end Sys2Proof.Tests
end

namespace Sys2Proof.Machine

/-! ## What a step does, by the host's next action (R11, R59) -/

theorem step_idle {s : State} (h : s.inputs = []) : step s = .next s := by
  simp only [step, h]

theorem step_action {s : State} {x : HostInput} {rest : List HostInput} (h : s.inputs = x :: rest) :
    step s = hostAction x { s with inputs := rest } := by
  simp only [step, h]

theorem takeRequest_decoded {s : State} {i : Instr} (h : decode s.port.req = .ok i) : takeRequest s = exec i s := by
  simp only [takeRequest, h]

theorem takeRequest_next {s t : State} (h : takeRequest s = .next t) :
    ∃ i, decode s.port.req = .ok i ∧ exec i s = .next t := by
  cases hd : decode s.port.req with
  | error e => simp [takeRequest, hd] at h
  | ok i => exact ⟨i, rfl, takeRequest_decoded hd ▸ h⟩

/-- A word of 64 bits stands for itself as a table row's bits. -/
theorem descriptorOf_toNat (d : Descriptor) : descriptorOf 64 d.toNat = d := by
  rw [descriptorOf, Nat.mod_eq_of_lt d.isLt, BitVec.ofNat_toNat, BitVec.setWidth_eq]

/-! ## What a step that answers a next state has done -/

/-- A request that ends in a next state was admitted, and either failed validation or was carried out (R303, R314). -/
theorem runRequest_next {p : Plan} {body : Memory → Memory × Bool} {s t : State} (h : runRequest p body s = .next t) :
    (Admitted p s ∧ validate p ≠ .noExcept ∧ t = s.raise (validate p)) ∨ (Runs p s ∧ t = s.succeed (body s.vrf)) := by
  obtain ⟨e, -, hr⟩ | ⟨-, -, hr⟩ | ⟨ha, hv, hr⟩ | ⟨e, -, -, -, hr⟩ | ⟨hruns, hr⟩ := runRequest_cases p body s
  case inl | inr.inl | inr.inr.inr.inl => rw [hr] at h; cases h
  case inr.inr.inl => rw [hr] at h; cases h; exact .inl ⟨ha, hv, rfl⟩
  case inr.inr.inr.inr => rw [hr] at h; cases h; exact .inr ⟨hruns, rfl⟩

/-- An instruction that ends in a next state changes the register file and the response at most (R33, R111, R303). -/
theorem exec_next_frame {i : Instr} {s t : State} (h : exec i s = .next t) :
    t = { s with vrf := t.vrf, response := t.response } := by
  obtain ⟨body, hx⟩ := exec_runRequest i s
  obtain ⟨-, -, rfl⟩ | ⟨-, rfl⟩ := runRequest_next (hx ▸ h) <;> rfl

/-- An abandoned request that ends in a next state would have ended in one without the reset; what it leaves depends on
whether it passes validation (R303, R331, U17). -/
theorem takeAbandoned_next {s t : State} (h : takeAbandoned s = .next t) :
    ∃ i u, decode s.port.req = .ok i ∧ exec i s = .next u ∧
      t = (if validate (planOf i) = .noExcept then abandonGroup (planOf i) s else s).resetBlock := by
  cases hd : decode s.port.req with
  | error e => simp [takeAbandoned, hd] at h
  | ok i =>
    cases hx : exec i s with
    | fault r => simp [takeAbandoned, hd, hx] at h
    | refused r => simp [takeAbandoned, hd, hx] at h
    | next u =>
      refine ⟨i, u, rfl, hx, ?_⟩
      simp only [takeAbandoned, hd, hx] at h
      split at h
      case isTrue hv => cases h; rw [if_pos hv]
      case isFalse hv => cases h; rw [if_neg hv]

theorem hostRead_next {a n : Nat} {s t : State} (h : hostRead a n s = .next t) :
    a + n ≤ s.params.fileBytes ∧ t = { s with readData := some (Memory.readBytes s.vrf a n) } := by
  unfold hostRead at h
  split at h
  case isTrue hle => cases h; exact ⟨hle, rfl⟩
  case isFalse => cases h

theorem hostWrite_next {a : Nat} {bytes : List Byte} {s t : State} (h : hostWrite a bytes s = .next t) :
    a + bytes.length ≤ s.params.fileBytes ∧ t = { s with vrf := Memory.writeBytes s.vrf a bytes } := by
  unfold hostWrite at h
  split at h
  case isTrue hle => cases h; exact ⟨hle, rfl⟩
  case isFalse => cases h

/-! ## No host action touches the actions that follow it or the parameters (R5) -/

theorem exec_keeps_inputs_params {i : Instr} {s t : State} (h : exec i s = .next t) :
    t.inputs = s.inputs ∧ t.params = s.params := by
  rw [exec_next_frame h]; exact ⟨rfl, rfl⟩

theorem takeAbandoned_keeps_inputs_params {s t : State} (h : takeAbandoned s = .next t) :
    t.inputs = s.inputs ∧ t.params = s.params := by
  obtain ⟨i, u, -, -, rfl⟩ := takeAbandoned_next h
  split <;> exact ⟨rfl, rfl⟩

theorem hostAction_keeps_inputs_params {x : HostInput} {s t : State} (h : hostAction x s = .next t) :
    t.inputs = s.inputs ∧ t.params = s.params := by
  cases x with
  | request r =>
    obtain ⟨i, -, hx⟩ := takeRequest_next h
    exact exec_keeps_inputs_params (s := s.drive r) hx
  | hostRead a n =>
    obtain ⟨-, rfl⟩ := hostRead_next h
    exact ⟨rfl, rfl⟩
  | hostWrite a bytes =>
    obtain ⟨-, rfl⟩ := hostWrite_next h
    exact ⟨rfl, rfl⟩
  | reset => cases h; exact ⟨rfl, rfl⟩
  | abandoned r => exact takeAbandoned_keeps_inputs_params (s := s.drive r) h

/-- Settles O57: an idle step answers the state itself, and any other step is a host action in the state with that action
taken off. -/
theorem everyStepTakesOneActionAndKeepsTheParameters : Obligations.EveryStepTakesOneActionAndKeepsTheParameters := by
  unfold Obligations.EveryStepTakesOneActionAndKeepsTheParameters
  intro s t h
  cases hi : s.inputs with
  | nil =>
    rw [step_idle hi] at h
    cases h
    exact ⟨hi, rfl⟩
  | cons x rest =>
    rw [step_action hi] at h
    exact hostAction_keeps_inputs_params h

theorem step_request {s : State} {r : Request} {rest : List HostInput} {i : Instr} (h : s.inputs = .request r :: rest)
    (hd : decode r.req = .ok i) : step s = exec i { s with port := r, inputs := rest } := by
  rw [step_action h]
  exact takeRequest_decoded (s := State.drive { s with inputs := rest } r) hd

theorem step_withFetchWord {s : State} {i : Instr} {d : Descriptor} (hd : decode d = .ok i) :
    step (s.withFetchWord 64 d.toNat) = exec i { s with port := { s.port with req := d } } := by
  have hin : (s.withFetchWord 64 d.toNat).inputs = .request { s.port with req := d } :: s.inputs := by
    rw [State.withFetchWord_inputs, descriptorOf_toNat]
  exact step_request hin hd

/-- Settles O56: the second clause is the first one for the request that `withFetchWord` puts at the head. -/
theorem stepRunsTheDecodedRequest : Obligations.StepRunsTheDecodedRequest :=
  ⟨fun _ _ _ _ => step_request, fun _ _ => step_withFetchWord⟩

end Sys2Proof.Machine

namespace Sys2Proof.Machine

/-! ## What a request leaves on the response port (R30, R33) -/

/-- A request that ends in a next state responds: with the status validation found, or with `NO_EXCEPT` (R100, R303). -/
theorem runRequest_next_responds {p : Plan} {body : Memory → Memory × Bool} {s t : State}
    (h : runRequest p body s = .next t) : ∃ r, t.response = some r := by
  obtain ⟨-, -, rfl⟩ | ⟨-, rfl⟩ := runRequest_next h
  case inl => exact ⟨_, State.raise_response s (validate p)⟩
  case inr => exact ⟨_, State.succeed_response s (body s.vrf)⟩

theorem exec_next_responds {i : Instr} {s t : State} (h : exec i s = .next t) : ∃ r, t.response = some r := by
  obtain ⟨body, hx⟩ := exec_runRequest i s
  exact runRequest_next_responds (hx ▸ h)

/-- Settles O49: every instruction is one request of the protocol, whose two ends in a next state both respond. -/
theorem requestsChangeOnlyRegisterFileAndResponse : Obligations.RequestsChangeOnlyRegisterFileAndResponse :=
  fun _ _ _ h => ⟨exec_next_frame h, exec_next_responds h⟩

/-! ## The host port's bytes (R29) -/

theorem Memory.readBytes_eq_map (m : Memory) (a n : Nat) :
    Memory.readBytes m a n = (List.range n).map fun k => Memory.read m (a + k) := by
  induction n generalizing a with
  | zero => rfl
  | succ n ih =>
    have hshift (k : Nat) : a + 1 + k = a + (k + 1) := by omega
    simp [Memory.readBytes, ih, List.range_succ_eq_map, List.map_map, Function.comp_def, hshift]

/-- A byte outside the bytes stored reads as before. -/
theorem Memory.read_writeBytes_other {m : Memory} (hm : Memory.wf m = true) {a : Nat} {bytes : List Byte} {x : Nat}
    (h : x < a ∨ a + bytes.length ≤ x) : Memory.read (Memory.writeBytes m a bytes) x = Memory.read m x := by
  induction bytes generalizing m a with
  | nil => rfl
  | cons c bytes ih =>
    rw [List.length_cons] at h
    have hx : x ≠ a := by omega
    rw [Memory.writeBytes, ih (Memory.wf_write hm _ _) (by omega), Memory.read_write hm, if_neg hx]

/-- Byte `k` of the data stored is read back at `a + k`: the first byte lies below what the rest writes. -/
theorem Memory.read_writeBytes {m : Memory} (hm : Memory.wf m = true) {a : Nat} {bytes : List Byte} {k : Nat}
    (hk : k < bytes.length) : some (Memory.read (Memory.writeBytes m a bytes) (a + k)) = bytes[k]? := by
  induction bytes generalizing m a k with
  | nil => cases hk
  | cons c bytes ih =>
    have hw : Memory.wf (Memory.write m a c) = true := Memory.wf_write hm a c
    cases k with
    | zero =>
      rw [Nat.add_zero, Memory.writeBytes, Memory.read_writeBytes_other hw (.inl (Nat.lt_succ_self a)),
        Memory.read_write hm, if_pos rfl, List.getElem?_cons_zero]
    | succ k =>
      rw [Memory.writeBytes, List.getElem?_cons_succ, show a + (k + 1) = a + 1 + k by omega]
      exact ih hw (Nat.lt_of_succ_lt_succ hk)

/-! ## The host port's steps, within the byte space and past its end (R29, R40) -/

theorem fileBytes_eq (p : Params) : p.fileBytes = 32 * p.vlenb := rfl

theorem hostRead_inside {a n : Nat} {s : State} (h : a + n ≤ 32 * s.params.vlenb) :
    hostRead a n s = .next { s with readData := some (Memory.readBytes s.vrf a n) } := by
  rw [hostRead, if_pos (fileBytes_eq s.params ▸ h)]

theorem hostRead_outside {a n : Nat} {s : State} (h : 32 * s.params.vlenb < a + n) :
    hostRead a n s = .fault (.hostPortOutOfRange a n) := by
  rw [hostRead, if_neg (fileBytes_eq s.params ▸ Nat.not_le.mpr h)]

theorem hostWrite_inside {a : Nat} {bytes : List Byte} {s : State} (h : a + bytes.length ≤ 32 * s.params.vlenb) :
    hostWrite a bytes s = .next { s with vrf := Memory.writeBytes s.vrf a bytes } := by
  rw [hostWrite, if_pos (fileBytes_eq s.params ▸ h)]

theorem hostWrite_outside {a : Nat} {bytes : List Byte} {s : State} (h : 32 * s.params.vlenb < a + bytes.length) :
    hostWrite a bytes s = .fault (.hostPortOutOfRange a bytes.length) := by
  rw [hostWrite, if_neg (fileBytes_eq s.params ▸ Nat.not_le.mpr h)]

theorem step_hostRead {s : State} {a n : Nat} {rest : List HostInput} (h : s.inputs = .hostRead a n :: rest) :
    step s = hostRead a n { s with inputs := rest } :=
  step_action h

theorem step_hostWrite {s : State} {a : Nat} {bytes : List Byte} {rest : List HostInput}
    (h : s.inputs = .hostWrite a bytes :: rest) : step s = hostWrite a bytes { s with inputs := rest } :=
  step_action h

/-- Settles O52. -/
theorem hostAccessOutsideTheByteSpaceFaults : Obligations.HostAccessOutsideTheByteSpaceFaults := by
  unfold Obligations.HostAccessOutsideTheByteSpaceFaults
  intro s rest a
  constructor
  · intro n hin hout
    rw [step_hostRead hin, hostRead_outside (s := { s with inputs := rest }) hout]
  · intro bytes hin hout
    rw [step_hostWrite hin, hostWrite_outside (s := { s with inputs := rest }) hout]

/-- Settles O51: the step's next state is known in full, and the laws of `writeBytes` and `readBytes` say what it holds.
Only the write's read-back rests on the canonical form. -/
theorem hostPortReadsAndWritesTheRegisterFile : Obligations.HostPortReadsAndWritesTheRegisterFile := by
  unfold Obligations.HostPortReadsAndWritesTheRegisterFile
  rintro s rest a ⟨hwf, -⟩
  constructor
  · intro bytes hin hle
    refine ⟨{ s with vrf := Memory.writeBytes s.vrf a bytes, inputs := rest }, ?_, rfl, ?_, ?_⟩
    · rw [step_hostWrite hin, hostWrite_inside (s := { s with inputs := rest }) hle]
    · exact fun k hk => Memory.read_writeBytes hwf hk
    · exact fun x hx => Memory.read_writeBytes_other hwf hx
  · intro n hin hle
    rw [step_hostRead hin, hostRead_inside (s := { s with inputs := rest }) hle, Memory.readBytes_eq_map]

/-! ## The state after reset (R32, R331) -/

/-- Settles O54. -/
theorem stateAfterReset : Obligations.StateAfterReset :=
  ⟨State.reset_response, fun _ => step_idle⟩

/-- A register file that lists no byte meets the invariant, whatever the parameters. -/
theorem State.inv_of_vrf_nil {s : State} (h : s.vrf = []) : s.inv := by
  rw [State.inv, h]
  exact ⟨rfl, rfl⟩

/-- Settles O58. -/
theorem invariantHoldsAtReset : Obligations.InvariantHoldsAtReset :=
  State.inv_of_vrf_nil State.reset_vrf

end Sys2Proof.Machine

namespace Sys2Proof.Machine

/-! ## The bytes of a number in memory (R43) -/

theorem Memory.readNat_lt (m : Memory) (a n : Nat) : Memory.readNat m a n < 256 ^ n := by
  induction n generalizing a with
  | zero => exact Nat.one_pos
  | succ n ih =>
    have hbyte := (Memory.read m a).isLt
    have hrest := ih (a + 1)
    rw [Memory.readNat, Nat.pow_succ]
    omega

theorem Memory.toNat_memRead (m : Memory) (a n : Nat) : (Memory.memRead m a n).toNat = Memory.readNat m a n := by
  have hlt := Memory.readNat_lt m a n
  rw [show (256 : Nat) ^ n = 2 ^ (8 * n) by rw [Nat.pow_mul]] at hlt
  rw [Memory.memRead, BitVec.toNat_ofNat, Nat.mod_eq_of_lt hlt]

/-- The bytes of two neighbouring ranges, the first one less significant (R43, R45). -/
theorem Memory.readNat_add (m : Memory) (a n n' : Nat) :
    Memory.readNat m a (n + n') = Memory.readNat m a n + 256 ^ n * Memory.readNat m (a + n) n' := by
  induction n generalizing a with
  | zero => simp [Memory.readNat]
  | succ n ih =>
    rw [show n + 1 + n' = n + n' + 1 by omega, Memory.readNat, Memory.readNat, ih, show a + 1 + n = a + (n + 1) by omega]
    ring

/-- Byte `k` of a number read from memory is the byte at the `k`-th address (R43). -/
theorem Memory.readNat_byte (m : Memory) (a : Nat) {n k : Nat} (hk : k < n) :
    Memory.readNat m a n / 256 ^ k % 256 = (Memory.read m (a + k)).toNat := by
  obtain ⟨n', rfl⟩ : ∃ n', n = k + (n' + 1) := ⟨n - k - 1, by omega⟩
  have hbyte := (Memory.read m (a + k)).isLt
  rw [Memory.readNat_add, Nat.add_mul_div_left _ _ (by positivity), Nat.div_eq_of_lt (Memory.readNat_lt m a k),
    Memory.readNat]
  omega

theorem toNat_extractByte {W : Nat} (v : BitVec W) (k : Nat) :
    (v.extractLsb' (8 * k) 8).toNat = v.toNat / 256 ^ k % 256 := by
  rw [BitVec.extractLsb'_toNat, Nat.shiftRight_eq_div_pow, Nat.pow_mul]

/-- Byte `k` of what `MemRead` answers (R43). -/
theorem Memory.memRead_byte (m : Memory) (a : Nat) {n k : Nat} (hk : k < n) :
    (Memory.memRead m a n).extractLsb' (8 * k) 8 = Memory.read m (a + k) := by
  apply BitVec.eq_of_toNat_eq
  rw [toNat_extractByte, Memory.toNat_memRead, Memory.readNat_byte m a hk]

/-- Settles O7: what is read back after a write is the value written, so its bytes are those of the value. -/
theorem elementBytesAreLittleEndian : Obligations.ElementBytesAreLittleEndian := by
  unfold Obligations.ElementBytesAreLittleEndian
  intro m a n hm
  refine ⟨fun k hk => Memory.memRead_byte m a hk, fun v => ⟨fun k hk => ?_, fun x hx => ?_⟩⟩
  · rw [← Memory.memRead_byte _ a hk, Memory.memRead_memWrite hm]
  · exact Memory.read_writeNat_other hm a n v.toNat x hx

/-! ## Views of different widths (R44, R45) -/

theorem elemAddr_double (b : Nat) (r : VReg) (i w : Nat) : elemAddr b r i (2 * w) = elemAddr b r (2 * i) w := by
  unfold elemAddr; ring

theorem elemAddr_succ (b : Nat) (r : VReg) (i w : Nat) : elemAddr b r (i + 1) w = elemAddr b r i w + w := by
  unfold elemAddr; ring

theorem toNat_readElem (b : Nat) (m : Memory) (r : VReg) (i w : Nat) :
    (readElem b m r i w).toNat = Memory.readNat m (elemAddr b r i w) w :=
  Memory.toNat_memRead m _ w

/-- The bytes of an element of double width are those of two neighbouring elements (R45). -/
theorem readElem_double (b : Nat) (m : Memory) (r : VReg) (i w : Nat) :
    (readElem b m r i (2 * w)).toNat =
      (readElem b m r (2 * i) w).toNat + 2 ^ (8 * w) * (readElem b m r (2 * i + 1) w).toNat := by
  simp only [toNat_readElem, elemAddr_double, elemAddr_succ]
  rw [Nat.two_mul w, Memory.readNat_add, Nat.pow_mul]

theorem readElem_byte (b : Nat) (m : Memory) (r : VReg) (i : Nat) :
    readElem b m r i 1 = Memory.read m (r.val * b + i) := by
  have haddr : elemAddr b r i 1 = r.val * b + i := by rw [elemAddr, Nat.mul_one]
  apply BitVec.eq_of_toNat_eq
  rw [toNat_readElem, haddr, Memory.readNat, Memory.readNat]
  rfl

/-- Settles O8. -/
theorem mixedWidthViewsAlias : Obligations.MixedWidthViewsAlias :=
  fun b m r i w => ⟨readElem_double b m r i w, readElem_byte b m r i⟩

/-- Settles O9: a write of one bit changes that bit of that byte alone. -/
theorem bitWriteLeavesTheOtherBits : Obligations.BitWriteLeavesTheOtherBits := by
  unfold Obligations.BitWriteLeavesTheOtherBits
  intro b m r i hm
  refine ⟨rfl, fun v => ⟨?_, fun x k _ hne => ?_⟩⟩
  · rw [readBit_writeBit hm, if_pos rfl]
  · rw [getLsbD_read_writeBit hm, bitAddr, if_neg hne]

/-! ## The canonical form is unique (R20, R40) -/

theorem Memory.wfAbove_cons {lo k : Nat} {b : Byte} {m : Memory} :
    Memory.wfAbove lo ((k, b) :: m) = true ↔ lo ≤ k ∧ b ≠ Memory.unlisted ∧ Memory.wfAbove (k + 1) m = true := by
  simp [Memory.wfAbove]

theorem Memory.read_head (k : Nat) (b : Byte) (m : Memory) : Memory.read ((k, b) :: m) k = b :=
  if_pos rfl

/-- A listed byte is seen: a canonical memory that reads alike at the first address `k` of another cannot begin above
`k`. -/
theorem Memory.le_of_read_head_eq {lo k : Nat} {b : Byte} {m m' : Memory} (hb : b ≠ Memory.unlisted)
    (hm' : Memory.wfAbove lo m' = true) (h : Memory.read ((k, b) :: m) k = Memory.read m' k) : lo ≤ k := by
  by_contra hlt
  rw [Memory.read_head, Memory.read_below hm' (by omega)] at h
  exact hb h

/-- Equal first entries can be taken off: neither rest lists the first address again. -/
theorem Memory.read_tail_eq {k : Nat} {b : Byte} {m m' : Memory} (hm : Memory.wfAbove (k + 1) m = true)
    (hm' : Memory.wfAbove (k + 1) m' = true) (h : ∀ x, Memory.read ((k, b) :: m) x = Memory.read ((k, b) :: m') x)
    (x : Nat) : Memory.read m x = Memory.read m' x := by
  by_cases hx : x = k
  · rw [Memory.read_below hm (by omega), Memory.read_below hm' (by omega)]
  · simpa only [Memory.read, if_neg hx] using h x

theorem Memory.eq_of_read_eq {lo : Nat} {m m' : Memory} (hm : Memory.wfAbove lo m = true)
    (hm' : Memory.wfAbove lo m' = true) (h : ∀ x, Memory.read m x = Memory.read m' x) : m = m' := by
  induction m generalizing lo m' with
  | nil =>
    cases m' with
    | nil => rfl
    | cons c m' =>
      obtain ⟨-, hb, -⟩ := Memory.wfAbove_cons.mp hm'
      exact absurd ((h c.1).trans (Memory.read_head c.1 c.2 m')).symm hb
  | cons c m ih =>
    obtain ⟨k, b⟩ := c
    obtain ⟨-, hb, hrest⟩ := Memory.wfAbove_cons.mp hm
    cases m' with
    | nil => exact absurd ((Memory.read_head k b m).symm.trans (h k)) hb
    | cons c' m' =>
      obtain ⟨k', b'⟩ := c'
      obtain ⟨-, hb', hrest'⟩ := Memory.wfAbove_cons.mp hm'
      have hle : k' ≤ k := Memory.le_of_read_head_eq hb (Memory.wfAbove_cons.mpr ⟨le_rfl, hb', hrest'⟩) (h k)
      have hge : k ≤ k' := Memory.le_of_read_head_eq hb' (Memory.wfAbove_cons.mpr ⟨le_rfl, hb, hrest⟩) (h k').symm
      obtain rfl : k = k' := Nat.le_antisymm hge hle
      obtain rfl : b = b' := by simpa only [Memory.read_head] using h k
      rw [ih hrest hrest' (Memory.read_tail_eq hrest hrest' h)]

/-- Settles O10. -/
theorem equalRegisterFilesAreEqualData : Obligations.EqualRegisterFilesAreEqualData :=
  fun _ _ => Memory.eq_of_read_eq

/-! ## Multiplicities as exact rationals (R47, R50) -/

theorem Mult.fractional_iff (m : Mult) : m.fractional = true ↔ m.num < m.den := by
  rw [Mult.fractional, decide_eq_true_eq]

theorem Mult.not_fractional_iff (m : Mult) : m.fractional = false ↔ m.den ≤ m.num := by
  rw [← Bool.not_eq_true, Mult.fractional_iff, Nat.not_lt]

theorem Mult.fractional_iff_lt_one {m : Mult} (hd : 0 < m.den) : m.fractional = true ↔ (m.num : ℚ) / m.den < 1 := by
  rw [Mult.fractional_iff, div_lt_one (by exact_mod_cast hd), Nat.cast_lt]

/-- `ceil(EMUL)` is the ceiling of the exact quotient (R49). -/
theorem Mult.ceil_eq {m : Mult} (hd : 0 < m.den) : ⌈(m.num : ℚ) / m.den⌉ = (m.ceil : ℤ) := by
  have hq : (0 : ℚ) < m.den := by exact_mod_cast hd
  have hlo : m.den * m.ceil < m.num + m.den := by
    have hmul := Nat.mul_div_le (m.num + m.den - 1) m.den
    rw [Mult.ceil]
    omega
  have hhi : m.num ≤ m.ceil * m.den := by
    have hmul := Nat.lt_div_mul_add (a := m.num + m.den - 1) hd
    rw [Mult.ceil]
    omega
  have hlo' : (m.den : ℚ) * m.ceil < m.num + m.den := by exact_mod_cast hlo
  rw [Int.ceil_eq_iff, lt_div_iff₀ hq, div_le_iff₀ hq]
  exact ⟨by push_cast; linarith, by exact_mod_cast hhi⟩

theorem aligned_iff (r : VReg) (m : Mult) : aligned r m = true ↔ m.fractional = true ∨ r.val % m.ceil = 0 := by
  rw [aligned, Bool.or_eq_true, decide_eq_true_eq]

/-- Settles O11: the model's test and its ceiling are those of the exact quotient. -/
theorem alignedMeansDivisibleByTheCeiling : Obligations.AlignedMeansDivisibleByTheCeiling := by
  unfold Obligations.AlignedMeansDivisibleByTheCeiling
  intro r num den hd
  have hmod : r.val % (Mult.mk num den).ceil = 0 ↔ (r.val : ℤ) % ⌈(num : ℚ) / den⌉ = 0 := by
    rw [Mult.ceil_eq (m := ⟨num, den⟩) hd, ← Int.natCast_emod, Int.natCast_eq_zero]
  rw [aligned_iff, Mult.fractional_iff_lt_one (m := ⟨num, den⟩) hd, hmod]

/-! ## Which registers two groups share (R52 to R55) -/

theorem Mult.nreg_pos (m : Mult) : 0 < m.nreg := Nat.le_max_left 1 _

/-- Two intervals of registers, neither empty, are disjoint exactly when one ends where the other has not begun. -/
theorem disjointGroups_iff (r : VReg) (m : Mult) (r' : VReg) (m' : Mult) :
    disjointGroups r m r' m' = true ↔ ∀ x, ¬ (InGroup r m x ∧ InGroup r' m' x) := by
  have hm := m.nreg_pos
  have hm' := m'.nreg_pos
  rw [disjointGroups, Bool.or_eq_true, decide_eq_true_eq, decide_eq_true_eq]
  constructor
  · rintro hsep x ⟨⟨h1, h2⟩, h3, h4⟩
    omega
  · intro hno
    have hmax := hno (max r.val r'.val)
    omega

theorem widenOk_iff (vd vs : VReg) (ms md : Mult) :
    widenOk vd vs ms md = true ↔
      (∀ x, ¬ (InGroup vd md x ∧ InGroup vs ms x)) ∨ ms.den ≤ ms.num ∧ vs.val + ms.nreg = vd.val + md.nreg := by
  rw [widenOk, Bool.or_eq_true, Bool.and_eq_true, Bool.not_eq_true', decide_eq_true_eq, disjointGroups_iff,
    Mult.not_fractional_iff]

theorem narrowOk_iff (vd vs : VReg) (md ms : Mult) :
    narrowOk vd vs md ms = true ↔ (∀ x, ¬ (InGroup vd md x ∧ InGroup vs ms x)) ∨ vd = vs := by
  rw [narrowOk, Bool.or_eq_true, decide_eq_true_eq, disjointGroups_iff]

/-- The source group ends with the destination group exactly when it is its upper half (R53). -/
theorem upperHalf_iff {m : Mult} (hm : m ∈ admittedPairs) (vd vs : VReg) :
    (m.den ≤ m.num ∧ vs.val + m.nreg = vd.val + (m.times 2).nreg) ↔ m.den ≤ m.num ∧ vs.val = vd.val + m.nreg := by
  refine and_congr_right fun hle => ?_
  rw [nreg_times hm (m.not_fractional_iff.mpr hle)]
  omega

/-- Settles O13: the extension and narrowing rules are the predicates read as statements; the widening rule needs that a
doubled whole multiplicity has twice the registers. -/
theorem overlapRulesSayWhichRegistersMayBeShared : Obligations.OverlapRulesSayWhichRegistersMayBeShared := by
  unfold Obligations.OverlapRulesSayWhichRegistersMayBeShared
  intro m vd vs hm
  refine ⟨fun _ _ => ?_, fun f => widenOk_iff vd vs (m.over f.val) m, narrowOk_iff vd vs m (m.times 2)⟩
  rw [widenOk_iff, upperHalf_iff hm]

end Sys2Proof.Machine

namespace Sys2Proof.Machine

/-! ## The groups of an admitted configuration (R47 to R51, R84) -/

/-- Every operand shape of an admitted configuration is the request's own, the double one or an extension's. -/
theorem mem_shapes {k : VClass} {c : Cfg} {sh : Shape} (h : sh ∈ shapes k c) :
    sh = ownShape c ∨ sh = wideShape c ∨ ∃ f, sh = fracShape f c := by
  cases k <;> grind [shapes, vdShape, vs2Shape]

theorem ownShape_mem_shapes (k : VClass) (c : Cfg) : ownShape c ∈ shapes k c := List.mem_cons_self

theorem vdShape_mem_shapes {k : VClass} {c : Cfg} {sh : Shape} (h : vdShape k c = some sh) : sh ∈ shapes k c := by
  simp [shapes, h]

theorem vs2Shape_mem_shapes {k : VClass} {c : Cfg} {sh : Shape} (h : vs2Shape k c = some sh) : sh ∈ shapes k c := by
  simp [shapes, h]

/-- Every operand of an admitted configuration has one of the four element widths (R84). -/
theorem eew_admitted {k : VClass} {c : Cfg} {sh : Shape} (hc : cfgError k c = none) (hsh : sh ∈ shapes k c) :
    sh.eew ∈ [8, 16, 32, 64] := by
  by_contra hbad
  have hany : ((shapes k c).any fun s => decide (s.eew ∉ [8, 16, 32, 64])) = true :=
    List.any_eq_true.mpr ⟨sh, hsh, decide_eq_true hbad⟩
  rw [cfgError, if_neg (not_not.mpr (lmul_admitted hc)), if_pos hany] at hc
  cases hc

/-- An element below `VLMAX` of any operand fits that operand's group, at the operand's own width (R48, R101, R113). -/
theorem shape_fits {k : VClass} {c : Cfg} {p : Params} {sh : Shape} {i : Nat} (hc : cfgError k c = none)
    (hsh : sh ∈ shapes k c) (hi : i < vlmax p c) : Fits p.vlenb sh.emul (sh.eew / 8) i := by
  have hown := fits_own hc hi
  obtain rfl | rfl | ⟨f, rfl⟩ := mem_shapes hsh
  case inl =>
    have hw : sewBits c.sew / 8 = sewb c.sew := Nat.mul_div_cancel_left _ (by decide)
    simpa only [ownShape, hw] using hown
  case inr.inl =>
    have hw : 2 * sewBits c.sew / 8 = 2 * sewb c.sew := by unfold sewBits; omega
    simpa only [wideShape, hw] using fits_wide hown
  case inr.inr =>
    have hf : 0 < f.val := by cases f <;> decide
    have hw : sewBits c.sew / f.val / 8 = sewb c.sew / f.val := by
      rw [Nat.div_div_eq_div_mul, sewBits, Nat.mul_comm f.val, Nat.mul_div_mul_left _ _ (by decide)]
    simpa only [fracShape, hw] using fits_frac hf hown

/-- The number of registers of every operand group of an admitted configuration divides that of the file (R47, R49). -/
theorem shape_nreg_dvd {k : VClass} {c : Cfg} {sh : Shape} (hc : cfgError k c = none) (hsh : sh ∈ shapes k c) :
    sh.emul.nreg ∣ Config.nreg := by
  have hown : ∀ m ∈ admittedPairs, m.nreg ∣ Config.nreg := by decide
  have hwide : ∀ m ∈ admittedPairs, (m.times 2).nreg ∣ Config.nreg := by decide
  have hfrac : ∀ f : ExtFactor, ∀ m ∈ admittedPairs, (m.over f.val).nreg ∣ Config.nreg := by
    intro f; cases f <;> decide
  have hm := lmul_admitted hc
  obtain rfl | rfl | ⟨f, rfl⟩ := mem_shapes hsh
  case inl => exact hown _ hm
  case inr.inl => exact hwide _ hm
  case inr.inr => exact hfrac f _ hm

theorem nreg_of_fractional {m : Mult} (h : m.fractional = true) : m.nreg = 1 :=
  Nat.max_eq_left (ceil_le_one h)

/-- The base register of an aligned group is a multiple of the group's size (R50). -/
theorem nreg_dvd_of_aligned {r : VReg} {m : Mult} (h : aligned r m = true) : m.nreg ∣ r.val := by
  rw [aligned, Bool.or_eq_true, decide_eq_true_eq] at h
  obtain hfrac | hmod := h
  case inl => rw [nreg_of_fractional hfrac]; exact one_dvd _
  case inr =>
    obtain hle | hlt := Nat.le_total m.ceil 1
    · rw [show m.nreg = 1 from Nat.max_eq_left hle]; exact one_dvd _
    · rw [show m.nreg = m.ceil from Nat.max_eq_right hlt]; exact Nat.dvd_of_mod_eq_zero hmod

/-- An aligned group whose size divides the file's does not run past the last register (R51). -/
theorem aligned_group_le {r : VReg} {m : Mult} (hr : aligned r m = true) (hm : m.nreg ∣ Config.nreg) :
    r.val + m.nreg ≤ Config.nreg := by
  obtain ⟨q, hq⟩ := nreg_dvd_of_aligned hr
  obtain ⟨n, hn⟩ := hm
  have hlt : q < n := Nat.lt_of_mul_lt_mul_left (a := m.nreg) (hq ▸ hn ▸ r.isLt)
  calc r.val + m.nreg = m.nreg * (q + 1) := by rw [hq, Nat.mul_succ]
    _ ≤ m.nreg * n := Nat.mul_le_mul_left _ hlt
    _ = Config.nreg := hn.symm

/-- Registers of the file end within its byte space (R40). -/
theorem group_bytes_le {p : Params} {n : Nat} (h : n ≤ Config.nreg) : n * p.vlenb ≤ p.fileBytes :=
  Nat.mul_le_mul_right _ h

/-- Elements of every admitted width are naturally aligned: the width divides `VLENB` (R57). -/
theorem elemAddr_mod {p : Params} {r : VReg} {i w : Nat} (hw : 8 * w ∈ [8, 16, 32, 64]) :
    elemAddr p.vlenb r i w % w = 0 := by
  have hdvd : w ∣ 8 := by
    simp only [List.mem_cons, List.not_mem_nil, or_false] at hw
    obtain rfl | rfl | rfl | rfl : w = 1 ∨ w = 2 ∨ w = 4 ∨ w = 8 := by omega
    all_goals decide
  have hb : w ∣ p.vlenb := hdvd.mul_right _
  exact Nat.mod_eq_zero_of_dvd (Nat.dvd_add (hb.mul_left _) (Nat.dvd_mul_left _ _))

/-- Element `k` of the group at `r` lies in the group's registers and in the byte space, naturally aligned (R51, R57). -/
abbrev ElemInside (p : Params) (k : Nat) (r : VReg) (sh : Shape) : Prop :=
  elemAddr p.vlenb r k (sh.eew / 8) + sh.eew / 8 ≤ (r.val + sh.emul.nreg) * p.vlenb ∧
  (r.val + sh.emul.nreg) * p.vlenb ≤ p.fileBytes ∧
  elemAddr p.vlenb r k (sh.eew / 8) % (sh.eew / 8) = 0

theorem elem_inside {k : VClass} {c : Cfg} {p : Params} {r : VReg} {sh : Shape} {i : Nat} (hc : cfgError k c = none)
    (hsh : sh ∈ shapes k c) (hr : aligned r sh.emul = true) (hi : i < vlmax p c) : ElemInside p i r sh := by
  have heew := eew_admitted hc hsh
  have hw : 8 * (sh.eew / 8) = sh.eew := by
    simp only [List.mem_cons, List.not_mem_nil, or_false] at heew
    omega
  exact ⟨elem_in_group (shape_fits hc hsh hi), group_bytes_le (aligned_group_le hr (shape_nreg_dvd hc hsh)),
    elemAddr_mod (hw.symm ▸ heew)⟩

/-- A mask bit whose index is below `VLMAX` lies in one register (R113). -/
theorem bitAddr_inside {k : VClass} {c : Cfg} {p : Params} {i : Nat} (r : VReg) (hc : cfgError k c = none)
    (hi : i < vlmax p c) : bitAddr p.vlenb r i < (r.val + 1) * p.vlenb := by
  have hbit : i < 8 * p.vlenb := fits_bit hc (fits_own hc hi)
  rw [bitAddr, Nat.succ_mul]
  omega

/-! ## What validation says of each register operand (R102, R103) -/

theorem vd_aligned {p : Plan} {sh : Shape} (hv : validate p = .noExcept) (h : vdShape p.cls p.cfg = some sh) :
    aligned p.vd sh.emul = true := by
  obtain ⟨-, -, hvd, -⟩ := validate_ok hv
  simpa only [vdAligned, h] using hvd

theorem vs2_aligned {p : Plan} {r : VReg} {sh : Shape} (hv : validate p = .noExcept) (hr : p.vs2 = some r)
    (h : vs2Shape p.cls p.cfg = some sh) : aligned r sh.emul = true := by
  obtain ⟨-, hvs2, -⟩ := validate_ok hv
  simpa only [vs2Aligned, hr, h] using hvs2

theorem vs1_aligned {p : Plan} {r : VReg} (hv : validate p = .noExcept) (hr : p.vs1 = some r) :
    aligned r (ownShape p.cfg).emul = true := by
  obtain ⟨hvs1, -⟩ := validate_ok hv
  simpa only [vs1Aligned, hr, ownShape] using hvs1

/-- Settles O12: each operand's shape is one of the admitted configuration, and validation has aligned its register. -/
theorem validatedAccessesStayInTheirGroup : Obligations.ValidatedAccessesStayInTheirGroup := by
  unfold Obligations.ValidatedAccessesStayInTheirGroup
  rintro i s ⟨hc, hvl⟩ hv k hk
  have hkmax : k < vlmax s.params (planOf i).cfg := Nat.lt_of_lt_of_le hk hvl
  refine ⟨?_, ?_, ?_, ?_⟩
  · exact fun sh hsh => elem_inside hc (vdShape_mem_shapes hsh) (vd_aligned hv hsh) hkmax
  · exact fun r sh hr hsh => elem_inside hc (vs2Shape_mem_shapes hsh) (vs2_aligned hv hr hsh) hkmax
  · exact fun r hr => elem_inside hc (ownShape_mem_shapes _ _) (vs1_aligned hv hr) hkmax
  · exact fun r => bitAddr_inside r hc hkmax

/-! ## Every host action keeps the invariant (R40, R51, R113) -/

/-- The destination group of an admitted, valid request ends within the byte space (R51). -/
theorem dest_bytes_le {p : Plan} (q : Params) (hc : cfgError p.cls p.cfg = none) (hv : validate p = .noExcept) :
    p.vd.val * q.vlenb + (destMult p).nreg * q.vlenb ≤ q.fileBytes := by
  rw [← Nat.add_mul]
  refine group_bytes_le ?_
  unfold destMult
  cases hsh : vdShape p.cls p.cfg with
  | none => exact p.vd.isLt
  | some sh => exact aligned_group_le (vd_aligned hv hsh) (shape_nreg_dvd hc (vdShape_mem_shapes hsh))

/-- A request keeps the invariant where what it writes when it is carried out does. -/
theorem runRequest_inv {p : Plan} {body : Memory → Memory × Bool} {s t : State} (hs : s.inv)
    (hbody : Runs p s → Memory.wf (body s.vrf).1 = true ∧ Memory.within s.params.fileBytes (body s.vrf).1 = true)
    (h : runRequest p body s = .next t) : t.inv := by
  obtain ⟨-, -, rfl⟩ | ⟨hr, rfl⟩ := runRequest_next h
  case inl => exact hs
  case inr => exact hbody hr

theorem elemRequest_inv {p : Plan} {wd lo : Nat} {gate : Memory → Nat → Bool}
    {val : Memory → Nat → BitVec (8 * wd) × Bool} {s t : State} (hs : s.inv) (hw : DestWidth p wd)
    (h : elemRequest p wd lo gate val s = .next t) : t.inv := by
  refine runRequest_inv hs (fun hr => ?_) h
  obtain ⟨⟨hc, hvl⟩, hv, -⟩ := hr
  obtain ⟨m, hsh, -⟩ := hw
  refine ⟨wf_elemSteps _ _ _ hs.1, within_elemSteps _ _ _ hs.2 fun i hlo hi => ?_⟩
  have hin : ElemInside s.params i p.vd ⟨8 * wd, m⟩ :=
    elem_inside hc (vdShape_mem_shapes hsh) (vd_aligned hv hsh) (by omega)
  obtain ⟨hgroup, hfile, -⟩ := hin
  rw [Nat.mul_div_cancel_left wd (by decide : 0 < 8)] at hgroup
  exact hgroup.trans hfile

theorem bitRequest_inv {p : Plan} {gate bit : Memory → Nat → Bool} {s t : State} (hs : s.inv)
    (h : bitRequest p gate bit s = .next t) : t.inv := by
  refine runRequest_inv hs (fun hr => ?_) h
  obtain ⟨⟨hc, hvl⟩, -⟩ := hr
  refine ⟨wf_bitSteps _ _ _ hs.1, within_bitSteps _ _ _ hs.2 fun i hlo hi => ?_⟩
  exact (bitAddr_inside p.vd hc (by omega)).trans_le (group_bytes_le p.vd.isLt)

/-- Every instruction keeps the invariant: it is one request that writes elements or mask bits of its own plan. -/
theorem exec_inv {i : Instr} {s t : State} (hs : s.inv) (h : exec i s = .next t) : t.inv := by
  cases exec_shape i s with
  | elem wd lo gate val hx hw => exact elemRequest_inv hs hw (hx ▸ h)
  | bit gate bit hx hc => exact bitRequest_inv hs (hx ▸ h)

/-- An instruction that ends in a next state was admitted (R334). -/
theorem exec_next_admitted {i : Instr} {s t : State} (h : exec i s = .next t) : Admitted (planOf i) s := by
  obtain ⟨body, hx⟩ := exec_runRequest i s
  obtain ⟨ha, -, -⟩ | ⟨⟨ha, -⟩, -⟩ := runRequest_next (hx ▸ h) <;> exact ha

theorem abandonGroup_inv {p : Plan} {s : State} (hs : s.inv) (hc : cfgError p.cls p.cfg = none)
    (hv : validate p = .noExcept) : (abandonGroup p s).inv :=
  ⟨wf_scramble hs.1 _ _ _, within_scramble _ _ _ hs.2 (dest_bytes_le s.params hc hv)⟩

theorem takeAbandoned_inv {s t : State} (hs : s.inv) (h : takeAbandoned s = .next t) : t.inv := by
  obtain ⟨i, u, -, hx, rfl⟩ := takeAbandoned_next h
  obtain ⟨hc, -⟩ := exec_next_admitted hx
  split
  case isTrue hv => exact abandonGroup_inv hs hc hv
  case isFalse => exact hs

theorem hostAction_inv {x : HostInput} {s t : State} (hs : s.inv) (h : hostAction x s = .next t) : t.inv := by
  cases x with
  | request r =>
    obtain ⟨i, -, hx⟩ := takeRequest_next h
    exact exec_inv (s := s.drive r) hs hx
  | hostRead a n =>
    obtain ⟨-, rfl⟩ := hostRead_next h
    exact hs
  | hostWrite a bytes =>
    obtain ⟨hle, rfl⟩ := hostWrite_next h
    exact ⟨Memory.wf_writeBytes hs.1 _ _, Memory.within_writeBytes hs.2 _ _ hle⟩
  | reset => cases h; exact hs
  | abandoned r => exact takeAbandoned_inv (s := s.drive r) hs h

/-- Settles O59: an idle step answers the state itself, and any other step is one host action. -/
theorem everyStepKeepsTheInvariant : Obligations.EveryStepKeepsTheInvariant := by
  unfold Obligations.EveryStepKeepsTheInvariant
  intro s t hs h
  cases hi : s.inputs with
  | nil => rw [step_idle hi] at h; cases h; exact hs
  | cons x rest =>
    rw [step_action hi] at h
    exact hostAction_inv (s := { s with inputs := rest }) hs h

end Sys2Proof.Machine

namespace Sys2Proof

/-! ## The format of a descriptor (R70) -/

/-- Each field joined on the right of a word is added below it. -/
theorem toNat_append_eq_add {m n : Nat} (x : BitVec m) (y : BitVec n) :
    (x ++ y).toNat = x.toNat * 2 ^ n + y.toNat := by
  rw [BitVec.toNat_append, ← Nat.shiftLeft_add_eq_or_of_lt y.isLt, Nat.shiftLeft_eq]

/-- The sum of R70: each field times its place. -/
theorem Fields.toNat_toWord (f : Fields) : f.toWord.toNat =
    f.op.toNat + f.form.toNat * 2 ^ 8 + f.me.toNat * 2 ^ 10 + f.vd.toNat * 2 ^ 11 + f.vs1.toNat * 2 ^ 16 +
      f.vs2.toNat * 2 ^ 21 + f.vsew.toNat * 2 ^ 26 + f.lmulNum.toNat * 2 ^ 28 + f.lmulDen.toNat * 2 ^ 32 +
      f.vxrm.toNat * 2 ^ 36 + f.zero.toNat * 2 ^ 38 := by
  simp only [Fields.toWord, toNat_append_eq_add, BitVec.toNat_ofBool]
  ring

theorem toNat_extract (w : Descriptor) (start len : Nat) :
    (w.extractLsb' start len).toNat = w.toNat / 2 ^ start % 2 ^ len := by
  rw [BitVec.extractLsb'_toNat, Nat.shiftRight_eq_div_pow]

theorem toNat_bit (w : Descriptor) (k : Nat) : (w.getLsbD k).toNat = w.toNat / 2 ^ k % 2 := by
  rw [BitVec.getLsbD, Nat.toNat_testBit]

/-- Taking a descriptor apart loses no bit (R70). -/
theorem Fields.toWord_ofWord (w : Descriptor) : (Fields.ofWord w).toWord = w := by
  apply BitVec.eq_of_toNat_eq
  have hw := w.isLt
  simp only [Fields.toNat_toWord, Fields.ofWord, toNat_extract, toNat_bit]
  omega

/-- No two sets of fields share a descriptor: each field is read back from its place in the sum (R70). -/
theorem Fields.ofWord_toWord (f : Fields) : Fields.ofWord f.toWord = f := by
  have hsum := f.toNat_toWord
  obtain ⟨op, form, me, vd, vs1, vs2, vsew, num, den, vxrm, zero⟩ := f
  have hme := me.toNat_lt
  dsimp only at hsum
  rw [Fields.ofWord, Fields.mk.injEq]
  refine ⟨?_, ?_, ?bit10, ?_, ?_, ?_, ?_, ?_, ?_, ?_, ?_⟩
  case bit10 =>
    rw [Bool.eq_iff_iff, ← Bool.toNat_eq_one, ← Bool.toNat_eq_one, toNat_bit, hsum]
    omega
  all_goals
    apply BitVec.eq_of_toNat_eq
    rw [toNat_extract, hsum]
    omega

/-- Settles O3. -/
theorem descriptorFieldsStandWhereTheFormatSays : Obligations.DescriptorFieldsStandWhereTheFormatSays :=
  ⟨Fields.toNat_toWord, Fields.toWord_ofWord⟩

/-! ## Every row's fields are read back (R79, R80) -/

/-- The decoder reads every instruction's own fields as that instruction: one case per kind of row (R79, R80). -/
theorem decodeFields_fields (i : Instr) : decodeFields i.fields = .ok i := by
  cases i with
  | vaddVV o | vsubVV o | vandVV o | vorVV o | vxorVV o | vsllVV o | vsrlVV o | vsraVV o | vminuVV o | vminVV o
  | vmaxuVV o | vmaxVV o | vwadduVV o | vwaddVV o | vwsubuVV o | vwsubVV o | vnsrlWV o | vnsraWV o | vmseqVV o
  | vmsneVV o | vmsltuVV o | vmsltVV o | vmsleuVV o | vmsleVV o | vmsgtuVV o | vmsgtVV o | vmsgeuVV o | vmsgeVV o
  | vmulVV o | vmulhVV o | vmulhuVV o | vmulhsuVV o | vdivuVV o | vdivVV o | vremuVV o | vremVV o | vwmuluVV o
  | vwmulVV o | vwmulsuVV o | vmaccVV o | vnmsacVV o | vmaddVV o | vnmsubVV o | vwmaccuVV o | vwmaccVV o
  | vwmaccsuVV o | vadcVVM o | vsbcVVM o | vsadduVV o | vsaddVV o | vssubuVV o | vssubVV o | vaadduVV o | vaaddVV o
  | vasubuVV o | vasubVV o | vmergeVVM o => exact Laws.rowVV_fields _ _ o
  | vaddVX o | vsubVX o | vrsubVX o | vandVX o | vorVX o | vxorVX o | vsllVX o | vsrlVX o | vsraVX o | vminuVX o
  | vminVX o | vmaxuVX o | vmaxVX o | vwadduVX o | vwaddVX o | vwsubuVX o | vwsubVX o | vnsrlWX o | vnsraWX o
  | vmseqVX o | vmsneVX o | vmsltuVX o | vmsltVX o | vmsleuVX o | vmsleVX o | vmsgtuVX o | vmsgtVX o | vmsgeuVX o
  | vmsgeVX o | vmulVX o | vmulhVX o | vmulhuVX o | vmulhsuVX o | vdivuVX o | vdivVX o | vremuVX o | vremVX o
  | vwmuluVX o | vwmulVX o | vwmulsuVX o | vmaccVX o | vnmsacVX o | vmaddVX o | vnmsubVX o | vwmaccuVX o | vwmaccVX o
  | vwmaccsuVX o | vwmaccusVX o | vadcVXM o | vsbcVXM o | vsadduVX o | vsaddVX o | vssubuVX o | vssubVX o
  | vaadduVX o | vaaddVX o | vasubuVX o | vasubVX o | vmergeVXM o | vslideupVX o | vslidedownVX o | vslide1upVX o
  | vslide1downVX o => exact Laws.rowVX_fields _ _ o
  | vaddVI o | vrsubVI o | vandVI o | vorVI o | vxorVI o | vsllVI o | vsrlVI o | vsraVI o | vnsrlWI o | vnsraWI o
  | vmseqVI o | vmsneVI o | vmsltuVI o | vmsltVI o | vmsleuVI o | vmsleVI o | vmsgtuVI o | vmsgtVI o | vmsgeuVI o
  | vmsgeVI o | vadcVIM o | vsadduVI o | vsaddVI o | vmergeVIM o | vslideupVI o | vslidedownVI o =>
    exact Laws.rowVI_fields _ _ o
  | vzextVf2 o | vzextVf4 o | vzextVf8 o | vsextVf2 o | vsextVf4 o | vsextVf8 o => exact Laws.rowExt_fields _ _ o
  | vmvVV o => exact Laws.rowMvV_fields _ _ o
  | vmvVX o => exact Laws.rowMvX_fields _ _ o
  | vmvVI o => exact Laws.rowMvI_fields _ _ o
  | vmadcVV o => exact Laws.DecodeFields.vmadcVV o
  | vmadcVVM o => exact Laws.DecodeFields.vmadcVVM o
  | vmadcVX o => exact Laws.DecodeFields.vmadcVX o
  | vmadcVXM o => exact Laws.DecodeFields.vmadcVXM o
  | vmadcVI o => exact Laws.DecodeFields.vmadcVI o
  | vmadcVIM o => exact Laws.DecodeFields.vmadcVIM o
  | vmsbcVV o => exact Laws.DecodeFields.vmsbcVV o
  | vmsbcVVM o => exact Laws.DecodeFields.vmsbcVVM o
  | vmsbcVX o => exact Laws.DecodeFields.vmsbcVX o
  | vmsbcVXM o => exact Laws.DecodeFields.vmsbcVXM o

/-- Decoding inverts encoding. -/
theorem decode_encode (i : Instr) : decode (encode i) = .ok i := by
  rw [decode, encode, Fields.ofWord_toWord, decodeFields_fields]

/-- Settles O1: the fields are read back from the word, and the instruction from the fields. -/
theorem decodingAnEncodingGivesTheInstruction : Obligations.DecodingAnEncodingGivesTheInstruction :=
  decode_encode

/-- A word that is some instruction's descriptor decodes to that instruction. -/
theorem decode_of_encode_eq {w : Descriptor} {i : Instr} (h : encode i = w) : decode w = .ok i :=
  h ▸ decode_encode i

/-- Settles O4: the instruction's descriptor is computed, and decoding inverts it. -/
theorem specWordsDecodeAsWritten : Obligations.SpecWordsDecodeAsWritten :=
  have hword : encode (.vaddVV ⟨false, 3, 2, 1, ⟨.e32, 1, 1, .rnu⟩⟩) = 0x0000000118221800 := by decide
  ⟨decode_of_encode_eq hword, hword⟩

/-- Settles O5: each word is the descriptor of its instruction, computed from the fields. -/
theorem wordsWrittenBitByBitDecodeAsTheyStand : Obligations.WordsWrittenBitByBitDecodeAsTheyStand := by
  unfold Obligations.WordsWrittenBitByBitDecodeAsTheyStand
  refine ⟨?_, ?_, ?_, ?_, ?_, ?_⟩
  all_goals exact decode_of_encode_eq (by decide)

end Sys2Proof

namespace Sys2Proof

/-! ## What the decoder answers to any set of fields (R79, R80, R82) -/

theorem Sew.field_ofField (v : BitVec 2) : (Sew.ofField v).field = v := by revert v; decide

theorem RoundMode.field_ofField (v : BitVec 2) : (RoundMode.ofField v).field = v := by revert v; decide

/-- The configuration and register fields are encoded as they were read (R70, R75). -/
theorem Fields.cfg_fields_eq {f : Fields} {op : BitVec 8} {form : BitVec 2} (hop : f.op = op) (hform : f.form = form)
    (hzero : f.zero = 0) : f.cfg.fields op form f.me (regOfField f.vd) f.vs1 f.vs2 = f := by
  obtain ⟨_, _, me, vd, vs1, vs2, vsew, num, den, vxrm, _⟩ := f
  subst hop hform hzero
  simp only [Cfg.fields, Fields.cfg, Sew.field_ofField, RoundMode.field_ofField]
  rfl

theorem toNat_ne_zero_iff {n : Nat} {v : BitVec n} : v.toNat ≠ 0 ↔ v ≠ 0 :=
  BitVec.toNat_ne_iff_ne (y := 0)

/-- A field whose value is known, as a word. -/
theorem eq_ofNat_of_toNat_eq {n k : Nat} {v : BitVec n} (h : v.toNat = k) : v = .ofNat n k := by
  rw [← h, BitVec.ofNat_toNat, BitVec.setWidth_eq]

/-! ## The operation map as lists of operation ids (R80, R82) -/

/-- The operation ids that have form V. -/
def opsOfFormV : List Nat :=
  List.range' 0x00 2 ++ List.range' 0x03 10 ++ List.range' 0x10 6 ++ List.range' 0x18 6 ++ List.range' 0x20 10 ++
    List.range' 0x30 11 ++ List.range' 0x40 7 ++ List.range' 0x50 4 ++ List.range' 0x58 10

/-- The operation ids that have form X. -/
def opsOfFormX : List Nat :=
  List.range' 0x00 13 ++ List.range' 0x18 6 ++ List.range' 0x20 10 ++ List.range' 0x30 11 ++ List.range' 0x40 8 ++
    List.range' 0x50 4 ++ List.range' 0x58 10 ++ List.range' 0x68 4

/-- The operation ids that have form I. -/
def opsOfFormI : List Nat :=
  [0x00, 0x02, 0x03, 0x04, 0x05, 0x06, 0x07, 0x08, 0x1C, 0x1D] ++ List.range' 0x20 10 ++
    [0x50, 0x52, 0x58, 0x59, 0x60, 0x61, 0x68, 0x69]

/-- The operation ids that have a form. -/
def opsOfForm : Nat → List Nat
  | 0 => opsOfFormV
  | 1 => opsOfFormX
  | 2 => opsOfFormI
  | _ => []

/-- What R82 asks of an `(op, form)` pair: whether it is listed, whether its `vs1` field must be 0 (form X and the
one-source extensions), whether its `vs2` field must be 0 (the moves). -/
def pairChecks (op form : Nat) : Bool × Bool × Bool :=
  (decide (op ∈ opsOfForm form), decide (form = 1 ∨ 0x10 ≤ op ∧ op ≤ 0x15), decide (op = 0x61))

/-- What R82 reserves beside the upper bits: a pair that is not listed, a source field that the operation does not
have. -/
def Fields.BadOp (f : Fields) : Prop :=
  f.op.toNat ∉ opsOfForm f.form.toNat ∨
    ((f.form.toNat = 1 ∨ 0x10 ≤ f.op.toNat ∧ f.op.toNat ≤ 0x15) ∧ f.vs1.toNat ≠ 0) ∨
    (f.op.toNat = 0x61 ∧ f.vs2.toNat ≠ 0)

theorem Fields.badOp_iff {f : Fields} {op form : Nat} {listed vs1Zero vs2Zero : Bool} (hop : f.op.toNat = op)
    (hform : f.form.toNat = form) (h : pairChecks op form = (listed, vs1Zero, vs2Zero)) :
    f.BadOp ↔ listed = false ∨ vs1Zero = true ∧ f.vs1 ≠ 0 ∨ vs2Zero = true ∧ f.vs2 ≠ 0 := by
  subst hop hform
  simp only [pairChecks, Prod.mk.injEq] at h
  obtain ⟨rfl, rfl, rfl⟩ := h
  simp only [Fields.BadOp, decide_eq_true_eq, decide_eq_false_iff_not, toNat_ne_zero_iff]

/-- The kinds of rows of the operation map: the form each stands in, what it checks, and that its instruction's fields
are laid out for this `op` (R70, R80). -/
inductive IsRow (op : Nat) : Nat → RowDecoder → Prop where
  | vv (mk : OpVV → Instr) (h : ∀ o, (mk o).fields = o.fields (.ofNat 8 op))
      (hp : pairChecks op 0 = (true, false, false)) : IsRow op 0 (rowVV mk)
  | vx (mk : OpVX → Instr) (h : ∀ o, (mk o).fields = o.fields (.ofNat 8 op))
      (hp : pairChecks op 1 = (true, true, false)) : IsRow op 1 (rowVX mk)
  | vi (mk : OpVI → Instr) (h : ∀ o, (mk o).fields = o.fields (.ofNat 8 op))
      (hp : pairChecks op 2 = (true, false, false)) : IsRow op 2 (rowVI mk)
  | ext (mk : OpExt → Instr) (h : ∀ o, (mk o).fields = o.fields (.ofNat 8 op))
      (hp : pairChecks op 0 = (true, true, false)) : IsRow op 0 (rowExt mk)
  | mvV (mk : OpMvV → Instr) (h : ∀ o, (mk o).fields = o.fields (.ofNat 8 op))
      (hp : pairChecks op 0 = (true, false, true)) : IsRow op 0 (rowMvV mk)
  | mvX (mk : OpMvX → Instr) (h : ∀ o, (mk o).fields = o.fields (.ofNat 8 op))
      (hp : pairChecks op 1 = (true, true, true)) : IsRow op 1 (rowMvX mk)
  | mvI (mk : OpMvI → Instr) (h : ∀ o, (mk o).fields = o.fields (.ofNat 8 op))
      (hp : pairChecks op 2 = (true, false, true)) : IsRow op 2 (rowMvI mk)
  | cv (plain withCarry : OpCV → Instr) (hplain : ∀ o, (plain o).fields = o.fields (.ofNat 8 op) false)
      (hcarry : ∀ o, (withCarry o).fields = o.fields (.ofNat 8 op) true)
      (hp : pairChecks op 0 = (true, false, false)) : IsRow op 0 (rowCV plain withCarry)
  | cx (plain withCarry : OpCX → Instr) (hplain : ∀ o, (plain o).fields = o.fields (.ofNat 8 op) false)
      (hcarry : ∀ o, (withCarry o).fields = o.fields (.ofNat 8 op) true)
      (hp : pairChecks op 1 = (true, true, false)) : IsRow op 1 (rowCX plain withCarry)
  | ci (plain withCarry : OpCI → Instr) (hplain : ∀ o, (plain o).fields = o.fields (.ofNat 8 op) false)
      (hcarry : ∀ o, (withCarry o).fields = o.fields (.ofNat 8 op) true)
      (hp : pairChecks op 2 = (true, false, false)) : IsRow op 2 (rowCI plain withCarry)
  | absent (form : Nat) (h : decide (op ∈ opsOfForm form) = false) : IsRow op form absentForm

/-! ## Each row's answer -/

/-- The decoder's answer to fields `f`: it rejects them when they are bad, and what it accepts has exactly the fields
`f`. -/
inductive Reading (f : Fields) (bad : Prop) : Except DecodeError Instr → Prop where
  | rejected (e : DecodeError) (h : bad) : Reading f bad (.error e)
  | accepted (i : Instr) (h : ¬ bad) (hi : i.fields = f) : Reading f bad (.ok i)

theorem Reading.congr {f : Fields} {p q : Prop} {r : Except DecodeError Instr} (h : Reading f p r) (hpq : q ↔ p) :
    Reading f q r := propext hpq ▸ h

/-- The decoder rejects exactly the bad fields. -/
theorem Reading.error_iff {f : Fields} {bad : Prop} {r : Except DecodeError Instr} (h : Reading f bad r) :
    (∃ e, r = .error e) ↔ bad := by
  cases h with
  | rejected e hbad => exact iff_of_true ⟨e, rfl⟩ hbad
  | accepted i hgood => exact iff_of_false (by rintro ⟨e, he⟩; cases he) hgood

theorem Reading.fields_eq {f : Fields} {bad : Prop} {r : Except DecodeError Instr} {i : Instr} (h : Reading f bad r)
    (hr : r = .ok i) : i.fields = f := by
  subst hr
  cases h with
  | accepted _ _ hi => exact hi

/-- A row that tests a source field for zero. -/
theorem Reading.of_zero_field {f : Fields} {v : BitVec 5} {i : Instr} {e : DecodeError}
    (hi : v = 0 → i.fields = f) : Reading f (v ≠ 0) (if v = 0 then .ok i else .error e) := by
  split
  case isTrue h => exact .accepted i (not_not.mpr h) (hi h)
  case isFalse h => exact .rejected e h

/-- The row that `me` selects has that `me` in its fields (R79). -/
theorem fields_of_me {α : Type} {plain withCarry : α → Instr} {enc : Bool → α → Fields}
    (hplain : ∀ o, (plain o).fields = enc false o) (hcarry : ∀ o, (withCarry o).fields = enc true o) (me : Bool)
    (o : α) : ((if me then withCarry else plain) o).fields = enc me o := by
  cases me with
  | false => exact hplain o
  | true => exact hcarry o

/-- A row, given fields with its `op` and form, rejects the bad ones and reads the others exactly. -/
theorem IsRow.reading {op form : Nat} {row : RowDecoder} (hrow : IsRow op form row) {f : Fields}
    (hop : f.op.toNat = op) (hform : f.form.toNat = form) (hzero : f.zero = 0) : Reading f f.BadOp (row f) := by
  have hcfg := Fields.cfg_fields_eq (eq_ofNat_of_toNat_eq hop) (eq_ofNat_of_toNat_eq hform) hzero
  cases hrow with
  | absent _ hp => exact .rejected _ (.inl (by simpa [hop, hform] using hp))
  | vv mk h hp | vi mk h hp =>
    exact .congr (.accepted _ not_false ((h _).trans hcfg)) (by simpa using Fields.badOp_iff hop hform hp)
  | vx mk h hp | ext mk h hp | mvV mk h hp | mvI mk h hp =>
    refine .congr (.of_zero_field fun hsource => (h _).trans ?_) (by simpa using Fields.badOp_iff hop hform hp)
    rwa [hsource] at hcfg
  | mvX mk h hp =>
    have hbad : f.BadOp ↔ f.vs1 ≠ 0 ∨ f.vs2 ≠ 0 := by simpa using Fields.badOp_iff hop hform hp
    rw [rowMvX]
    split
    case isFalse hvs1 => exact .rejected _ (hbad.mpr (.inl hvs1))
    case isTrue hvs1 =>
      refine .congr (.of_zero_field fun hvs2 => (h _).trans ?_) (hbad.trans (or_iff_right (not_not.mpr hvs1)))
      rwa [hvs1, hvs2] at hcfg
  | cv plain withCarry hplain hcarry hp | ci plain withCarry hplain hcarry hp =>
    exact .congr (.accepted _ not_false ((fields_of_me hplain hcarry f.me _).trans hcfg))
      (by simpa using Fields.badOp_iff hop hform hp)
  | cx plain withCarry hplain hcarry hp =>
    refine .congr (.of_zero_field fun hvs1 => (fields_of_me hplain hcarry f.me _).trans ?_)
      (by simpa using Fields.badOp_iff hop hform hp)
    rwa [hvs1] at hcfg

/-- An operation reads its fields by the row of their form; form 3 is reserved (R70, R82). -/
theorem byForm_reading {op : Nat} {v x i : RowDecoder} {f : Fields} (hop : f.op.toNat = op) (hzero : f.zero = 0)
    (hv : IsRow op 0 v) (hx : IsRow op 1 x) (hi : IsRow op 2 i) : Reading f f.BadOp (byForm f v x i) := by
  obtain h | h | h | h : f.form.toNat = 0 ∨ f.form.toNat = 1 ∨ f.form.toNat = 2 ∨ f.form.toNat = 3 := by
    have := f.form.isLt
    omega
  all_goals simp only [byForm, h]
  case inl => exact hv.reading hop h hzero
  case inr.inl => exact hx.reading hop h hzero
  case inr.inr.inl => exact hi.reading hop h hzero
  case inr.inr.inr => exact .rejected _ (.inl (by simp [h, opsOfForm]))

theorem mem_opsOfForm_iff (op form : Nat) : op ∈ opsOfForm form ↔
    form = 0 ∧ op ∈ opsOfFormV ∨ form = 1 ∧ op ∈ opsOfFormX ∨ form = 2 ∧ op ∈ opsOfFormI := by
  match form with
  | 0 | 1 | 2 => simp [opsOfForm]
  | n + 3 => simp [opsOfForm]

/-- The operation map against R82: each line's three rows are of a known kind, and an operation id that has no line (the
last case) is in no list. -/
theorem decodeOp_reading {f : Fields} (hzero : f.zero = 0) : Reading f f.BadOp (decodeOp f) := by
  unfold decodeOp
  split
  case h_73 =>
    simp only [imp_false] at *
    have hlisted : f.op.toNat ∉ opsOfForm f.form.toNat := by
      simp only [mem_opsOfForm_iff, opsOfFormV, opsOfFormX, opsOfFormI, List.mem_append, List.mem_range'_1,
        List.mem_cons, List.not_mem_nil, or_false]
      omega
    exact .rejected _ (.inl hlisted)
  all_goals
    rename_i hop
    refine byForm_reading hop hzero ?_ ?_ ?_
  all_goals constructor <;> intros <;> rfl

/-- What R82 reserves. -/
def Fields.Reserved (f : Fields) : Prop := f.zero ≠ 0 ∨ f.BadOp

/-- The decoder rejects exactly the reserved fields, and reads all others as the one instruction they are. -/
theorem decodeFields_reading (f : Fields) : Reading f f.Reserved (decodeFields f) := by
  unfold decodeFields
  split
  case isTrue hzero => exact (decodeOp_reading hzero).congr (or_iff_right (not_not.mpr hzero))
  case isFalse hzero => exact .rejected _ (.inl hzero)

theorem encode_of_decode {w : Descriptor} {i : Instr} (h : decode w = .ok i) : encode i = w := by
  have hfields : i.fields = Fields.ofWord w := (decodeFields_reading _).fields_eq h
  rw [encode, hfields, Fields.toWord_ofWord]

/-- Settles O2: an accepted instruction has the word's own fields, and the fields are all of the word. -/
theorem acceptedDescriptorHasOneMeaning : Obligations.AcceptedDescriptorHasOneMeaning :=
  fun _ _ => encode_of_decode

/-- The upper bits as a quotient (R70). -/
theorem Fields.zero_ofWord_iff (w : Descriptor) : (Fields.ofWord w).zero ≠ 0 ↔ w.toNat / 2 ^ 38 ≠ 0 := by
  have hw := w.isLt
  have hzero : (Fields.ofWord w).zero.toNat = w.toNat / 2 ^ 38 % 2 ^ 26 := toNat_extract w 38 26
  rw [← toNat_ne_zero_iff, hzero, Nat.mod_eq_of_lt (by omega)]

theorem decode_error_iff (w : Descriptor) : (∃ e, decode w = .error e) ↔ (Fields.ofWord w).Reserved :=
  (decodeFields_reading _).error_iff

namespace Machine

/-- A request with a descriptor that the decoder rejects is refused (R82, R305). -/
theorem step_request_reserved {s : State} {r : Request} {rest : List HostInput} {e : DecodeError}
    (h : s.inputs = .request r :: rest) (hd : decode r.req = .error e) : step s = .refused (.reservedDescriptor e) := by
  rw [step_action h, hostAction, takeRequest, State.drive_port, hd]

/-- Settles O6: the decoder's reading of the word's fields, with R82 in the terms of the statement. -/
theorem reservedDescriptorsAreExactlyTheRefusedOnes : Obligations.ReservedDescriptorsAreExactlyTheRefusedOnes := by
  unfold Obligations.ReservedDescriptorsAreExactlyTheRefusedOnes
  intro op form vs1 vs2 formV formX formI pair reserved
  have hlisted : ∀ w, op w ∉ opsOfForm (form w) ↔ form w = 3 ∨ ¬ pair w := by
    intro w
    have hpair : op w ∈ opsOfForm (form w) ↔ pair w := mem_opsOfForm_iff _ _
    rw [hpair, iff_or_self]
    rintro h3 (⟨h, -⟩ | ⟨h, -⟩ | ⟨h, -⟩) <;> omega
  have hreserved : ∀ w, (∃ e, decode w = .error e) ↔ reserved w := by
    intro w
    rw [decode_error_iff, Fields.Reserved, Fields.zero_ofWord_iff]
    refine or_congr_right ?_
    rw [← or_assoc]
    exact or_congr_left (hlisted w)
  refine ⟨hreserved, fun s r rest hin hr => ?_⟩
  obtain ⟨e, he⟩ := (hreserved r.req).mpr hr
  exact ⟨e, step_request_reserved hin he⟩

end Machine

end Sys2Proof

namespace Sys2Proof.Machine

/-! ## The admitted configurations of each class (R47, R84, R160, R334) -/

/-- An operand's element width and effective multiplicity are in range (R84, R334). -/
def Shape.InDomain (sh : Shape) : Prop := sh.eew ∈ [8, 16, 32, 64] ∧ sh.emul.inRange = true

theorem cfgError_eq_none_iff (k : VClass) (c : Cfg) :
    cfgError k c = none ↔ lmul c ∈ admittedPairs ∧ ∀ sh ∈ shapes k c, sh.InDomain := by
  have heew : ((shapes k c).any fun s => decide (s.eew ∉ [8, 16, 32, 64])) = true ↔
      ¬ ∀ sh ∈ shapes k c, sh.eew ∈ [8, 16, 32, 64] := by
    simp only [List.any_eq_true, decide_eq_true_eq, not_forall, exists_prop]
  have hrange : ((shapes k c).any fun s => !s.emul.inRange) = true ↔
      ¬ ∀ sh ∈ shapes k c, sh.emul.inRange = true := by
    simp only [List.any_eq_true, Bool.not_eq_true', not_forall, exists_prop, Bool.not_eq_true]
  simp only [cfgError, heew, hrange, Shape.InDomain, forall₂_and]
  split_ifs <;> simp_all

/-- An operand of the request's own width is in range whenever the multiplicity is admitted. -/
theorem ownShape_inDomain {c : Cfg} (hm : lmul c ∈ admittedPairs) : (ownShape c).InDomain := by
  have hwidth : ∀ s : Sew, sewBits s ∈ [8, 16, 32, 64] := by intro s; cases s <;> decide
  have hrange : ∀ m ∈ admittedPairs, m.inRange = true := by decide
  exact ⟨hwidth c.sew, hrange _ hm⟩

theorem wideShape_inDomain_iff {c : Cfg} (hm : lmul c ∈ admittedPairs) :
    (wideShape c).InDomain ↔ c.sew ≠ .e64 ∧ c.lmulNum.toNat ≤ 4 := by
  have hwidth : ∀ s : Sew, 2 * sewBits s ∈ [8, 16, 32, 64] ↔ s ≠ .e64 := by intro s; cases s <;> decide
  have hrange : ∀ m ∈ admittedPairs, (m.times 2).inRange = true ↔ m.num ≤ 4 := by decide
  exact and_congr (hwidth c.sew) (hrange _ hm)

theorem fracShape_vf2_inDomain_iff {c : Cfg} (hm : lmul c ∈ admittedPairs) :
    (fracShape .vf2 c).InDomain ↔ c.sew ≠ .e8 ∧ c.lmulDen.toNat ≤ 4 := by
  have hwidth : ∀ s : Sew, sewBits s / 2 ∈ [8, 16, 32, 64] ↔ s ≠ .e8 := by intro s; cases s <;> decide
  have hrange : ∀ m ∈ admittedPairs, (m.over 2).inRange = true ↔ m.den ≤ 4 := by decide
  exact and_congr (hwidth c.sew) (hrange _ hm)

theorem fracShape_vf4_inDomain_iff {c : Cfg} (hm : lmul c ∈ admittedPairs) :
    (fracShape .vf4 c).InDomain ↔ (c.sew = .e32 ∨ c.sew = .e64) ∧ c.lmulDen.toNat ≤ 2 := by
  have hwidth : ∀ s : Sew, sewBits s / 4 ∈ [8, 16, 32, 64] ↔ s = .e32 ∨ s = .e64 := by intro s; cases s <;> decide
  have hrange : ∀ m ∈ admittedPairs, (m.over 4).inRange = true ↔ m.den ≤ 2 := by decide
  exact and_congr (hwidth c.sew) (hrange _ hm)

theorem fracShape_vf8_inDomain_iff {c : Cfg} (hm : lmul c ∈ admittedPairs) :
    (fracShape .vf8 c).InDomain ↔ c.sew = .e64 ∧ c.lmulDen.toNat = 1 := by
  have hwidth : ∀ s : Sew, sewBits s / 8 ∈ [8, 16, 32, 64] ↔ s = .e64 := by intro s; cases s <;> decide
  have hrange : ∀ m ∈ admittedPairs, (m.over 8).inRange = true ↔ m.den = 1 := by decide
  exact and_congr (hwidth c.sew) (hrange _ hm)

theorem lmul_admitted_iff (c : Cfg) : lmul c ∈ admittedPairs ↔
    (c.lmulNum.toNat, c.lmulDen.toNat) ∈ [(1, 8), (1, 4), (1, 2), (1, 1), (2, 1), (4, 1), (8, 1)] := by
  simp only [lmul, admittedPairs, List.mem_cons, List.not_mem_nil, Mult.mk.injEq, Prod.mk.injEq]

/-- Settles O19: the operands of a class are of the request's own shape, which is always in range, and at most one
other. -/
theorem admittedConfigurationsPerClass : Obligations.AdmittedConfigurationsPerClass := by
  unfold Obligations.AdmittedConfigurationsPerClass
  intro k c
  rw [cfgError_eq_none_iff, ← lmul_admitted_iff]
  refine and_congr_right fun hm => ?_
  have hown := ownShape_inDomain hm
  cases k with
  | same | slide | move | maskDst => simp [shapes, vdShape, vs2Shape, hown]
  | widen | narrow => simp [shapes, vdShape, vs2Shape, hown, wideShape_inDomain_iff hm]
  | ext f =>
    cases f with
    | vf2 => simp [shapes, vdShape, vs2Shape, hown, fracShape_vf2_inDomain_iff hm]
    | vf4 => simp [shapes, vdShape, vs2Shape, hown, fracShape_vf4_inDomain_iff hm]
    | vf8 => simp [shapes, vdShape, vs2Shape, hown, fracShape_vf8_inDomain_iff hm]

end Sys2Proof.Machine

namespace Sys2Proof.Machine

/-! ## Every instruction is one of the shared operations (R100, R109, R112) -/

/-- The shared operations, as functions of the whole state. -/
inductive SharedOp : (State → Result) → Prop where
  | same (f : (W : Nat) → BitVec W → BitVec W → BitVec W → BitVec W × Bool) (a : Args) : SharedOp (sameOp f a)
  | wideMac (f : (W V : Nat) → BitVec W → BitVec W → BitVec V → BitVec V) (a : Args) : SharedOp (wideMacOp f a)
  | narrow (f : (V W : Nat) → BitVec V → BitVec W → BitVec W) (a : Args) : SharedOp (narrowOp f a)
  | ext (k : ExtFactor) (f : (V W : Nat) → BitVec V → BitVec W) (o : OpExt) : SharedOp (extOp k f o)
  | compare (p : (W : Nat) → BitVec W → BitVec W → Bool) (a : Args) : SharedOp (compareOp p a)
  | producer (p : (W : Nat) → BitVec W → BitVec W → Bool → Bool) (a : Args) : SharedOp (carryProducerOp p a)
  | carryIn (f : (W : Nat) → BitVec W → BitVec W → Bool → BitVec W) (a : Args) : SharedOp (carryInOp f a)
  | merge (f : (W : Nat) → BitVec W → BitVec W → Bool → BitVec W) (a : Args) : SharedOp (mergeOp f a)
  | move (a : MoveArgs) : SharedOp (moveOp a)
  | slideUp (offset : Nat) (a : Args) : SharedOp (slideUpOp offset a)
  | slideUpScalar (a : Args) : SharedOp fun s => slideUpOp (scalarOffset s) a s
  | slideDown (offset : Nat) (a : Args) : SharedOp (slideDownOp offset a)
  | slideDownScalar (a : Args) : SharedOp fun s => slideDownOp (scalarOffset s) a s
  | slide1Up (a : Args) : SharedOp (slide1UpOp a)
  | slide1Down (a : Args) : SharedOp (slide1DownOp a)

theorem SharedOp.plain (f : (W : Nat) → BitVec W → BitVec W → BitVec W) (a : Args) : SharedOp (plainOp f a) :=
  .same (fun W x y _ => (f W x y, false)) a

theorem SharedOp.mac (f : (W : Nat) → BitVec W → BitVec W → BitVec W → BitVec W) (a : Args) : SharedOp (macOp f a) :=
  .same (fun W x y d => (f W x y d, false)) a

theorem SharedOp.sat (f : (W : Nat) → BitVec W → BitVec W → BitVec W × Bool) (a : Args) : SharedOp (satOp f a) :=
  .same (fun W x y _ => f W x y) a

theorem SharedOp.wide (f : (W V : Nat) → BitVec W → BitVec W → BitVec V) (a : Args) : SharedOp (wideOp f a) :=
  .wideMac (fun W V x y _ => f W V x y) a

/-- The instructions by the shared operation their meaning calls. -/
theorem exec_sharedOp (i : Instr) : SharedOp (exec i) := by
  cases i with
  | vaddVV o | vaddVX o | vaddVI o | vsubVV o | vsubVX o | vrsubVX o | vrsubVI o | vandVV o | vandVX o | vandVI o
  | vorVV o | vorVX o | vorVI o | vxorVV o | vxorVX o | vxorVI o | vsllVV o | vsllVX o | vsllVI o | vsrlVV o
  | vsrlVX o | vsrlVI o | vsraVV o | vsraVX o | vsraVI o | vminuVV o | vminuVX o | vminVV o | vminVX o | vmaxuVV o
  | vmaxuVX o | vmaxVV o | vmaxVX o | vmulVV o | vmulVX o | vmulhVV o | vmulhVX o | vmulhuVV o | vmulhuVX o
  | vmulhsuVV o | vmulhsuVX o | vdivuVV o | vdivuVX o | vdivVV o | vdivVX o | vremuVV o | vremuVX o | vremVV o
  | vremVX o | vaadduVV o | vaadduVX o | vaaddVV o | vaaddVX o | vasubuVV o | vasubuVX o | vasubVV o | vasubVX o =>
    exact .plain _ _
  | vzextVf2 o | vzextVf4 o | vzextVf8 o | vsextVf2 o | vsextVf4 o | vsextVf8 o => exact .ext _ _ _
  | vwadduVV o | vwadduVX o | vwaddVV o | vwaddVX o | vwsubuVV o | vwsubuVX o | vwsubVV o | vwsubVX o | vwmuluVV o
  | vwmuluVX o | vwmulVV o | vwmulVX o | vwmulsuVV o | vwmulsuVX o => exact .wide _ _
  | vnsrlWV o | vnsrlWX o | vnsrlWI o | vnsraWV o | vnsraWX o | vnsraWI o => exact .narrow _ _
  | vmseqVV o | vmseqVX o | vmseqVI o | vmsneVV o | vmsneVX o | vmsneVI o | vmsltuVV o | vmsltuVX o | vmsltuVI o
  | vmsltVV o | vmsltVX o | vmsltVI o | vmsleuVV o | vmsleuVX o | vmsleuVI o | vmsleVV o | vmsleVX o | vmsleVI o
  | vmsgtuVV o | vmsgtuVX o | vmsgtuVI o | vmsgtVV o | vmsgtVX o | vmsgtVI o | vmsgeuVV o | vmsgeuVX o | vmsgeuVI o
  | vmsgeVV o | vmsgeVX o | vmsgeVI o => exact .compare _ _
  | vmaccVV o | vmaccVX o | vnmsacVV o | vnmsacVX o | vmaddVV o | vmaddVX o | vnmsubVV o | vnmsubVX o =>
    exact .mac _ _
  | vwmaccuVV o | vwmaccuVX o | vwmaccVV o | vwmaccVX o | vwmaccsuVV o | vwmaccsuVX o | vwmaccusVX o =>
    exact .wideMac _ _
  | vadcVVM o | vadcVXM o | vadcVIM o | vsbcVVM o | vsbcVXM o => exact .carryIn _ _
  | vmadcVV o | vmadcVVM o | vmadcVX o | vmadcVXM o | vmadcVI o | vmadcVIM o | vmsbcVV o | vmsbcVVM o | vmsbcVX o
  | vmsbcVXM o => exact .producer _ _
  | vsadduVV o | vsadduVX o | vsadduVI o | vsaddVV o | vsaddVX o | vsaddVI o | vssubuVV o | vssubuVX o | vssubVV o
  | vssubVX o => exact .sat _ _
  | vmergeVVM o | vmergeVXM o | vmergeVIM o => exact .merge _ _
  | vmvVV o | vmvVX o | vmvVI o => exact .move _
  | vslideupVX o => exact .slideUpScalar _
  | vslideupVI o => exact .slideUp _ _
  | vslidedownVX o => exact .slideDownScalar _
  | vslidedownVI o => exact .slideDown _ _
  | vslide1upVX o => exact .slide1Up _
  | vslide1downVX o => exact .slide1Down _

/-! ## The upper half of the scalar when XLEN is 32 (R78, U13) -/

/-- The state with another scalar on the request port. -/
def State.withScalar (s : State) (r : Scalar) : State := { s with port := { s.port with rs1 := r } }

@[simp] theorem State.withScalar_params (s : State) (r : Scalar) : (s.withScalar r).params = s.params := rfl
@[simp] theorem State.withScalar_vl (s : State) (r : Scalar) : (s.withScalar r).port.vl = s.port.vl := rfl
@[simp] theorem State.withScalar_vstart (s : State) (r : Scalar) : (s.withScalar r).port.vstart = s.port.vstart := rfl
@[simp] theorem State.withScalar_rs1 (s : State) (r : Scalar) : (s.withScalar r).port.rs1 = r := rfl

/-- An answer with other values on the request port of the next state. -/
def withPort (q : Request) : Result → Result
  | .next t => .next { t with port := q }
  | .fault e => .fault e
  | .refused e => .refused e

/-- A request whose body does not see the scalar answers alike with another one on the port. -/
theorem runRequest_withScalar (p : Plan) (body : Memory → Memory × Bool) (s : State) (r : Scalar) :
    runRequest p body (s.withScalar r) = withPort (s.withScalar r).port (runRequest p body s) := by
  rw [runRequest, runRequest, State.withScalar_params, State.withScalar_vl]
  cases cfgError p.cls p.cfg with
  | some e => rfl
  | none =>
    dsimp only
    split
    · rfl
    · split
      · rfl
      · cases hazard p <;> rfl

theorem elemRequest_withScalar (p : Plan) (wd lo : Nat) (gate : Memory → Nat → Bool)
    (val : Memory → Nat → BitVec (8 * wd) × Bool) (s : State) (r : Scalar) :
    elemRequest p wd lo gate val (s.withScalar r) = withPort (s.withScalar r).port (elemRequest p wd lo gate val s) :=
  runRequest_withScalar p _ s r

theorem bitRequest_withScalar (p : Plan) (gate bit : Memory → Nat → Bool) (s : State) (r : Scalar) :
    bitRequest p gate bit (s.withScalar r) = withPort (s.withScalar r).port (bitRequest p gate bit s) :=
  runRequest_withScalar p _ s r

theorem slideUpOp_withScalar (offset : Nat) (a : Args) (s : State) (r : Scalar) :
    slideUpOp offset a (s.withScalar r) = withPort (s.withScalar r).port (slideUpOp offset a s) :=
  elemRequest_withScalar _ _ _ _ _ s r

theorem slideDownOp_withScalar (offset : Nat) (a : Args) (s : State) (r : Scalar) :
    slideDownOp offset a (s.withScalar r) = withPort (s.withScalar r).port (slideDownOp offset a s) :=
  elemRequest_withScalar _ _ _ _ _ s r

section

variable {s : State} {r : Scalar}

theorem scalar64_withScalar (hx : s.params.xlen = .x32) (hr : r.setWidth 32 = s.port.rs1.setWidth 32) :
    scalar64 (s.withScalar r) = scalar64 s := by
  simp only [scalar64, State.withScalar_params, State.withScalar_rs1, hx, hr]

theorem scalarAt_withScalar (hx : s.params.xlen = .x32) (hr : r.setWidth 32 = s.port.rs1.setWidth 32) (W : Nat) :
    scalarAt (s.withScalar r) W = scalarAt s W := by
  rw [scalarAt, scalarAt, scalar64_withScalar hx hr]

theorem scalarOffset_withScalar (hx : s.params.xlen = .x32) (hr : r.setWidth 32 = s.port.rs1.setWidth 32) :
    scalarOffset (s.withScalar r) = scalarOffset s := by
  have hlow := congrArg BitVec.toNat hr
  simpa only [scalarOffset, State.withScalar_params, State.withScalar_rs1, hx, XLen.bits, BitVec.toNat_setWidth]
    using hlow

theorem rhsValue_withScalar (hx : s.params.xlen = .x32) (hr : r.setWidth 32 = s.port.rs1.setWidth 32) (m : Memory)
    (rhs : Rhs) (i w : Nat) : rhsValue (s.withScalar r) m rhs i w = rhsValue s m rhs i w := by
  cases rhs with
  | scalar => exact scalarAt_withScalar hx hr (8 * w)
  | vec v => rfl
  | simm imm => rfl
  | uimm imm => rfl

/-- Every shared operation sees the scalar only as an operand or as a slide offset. -/
theorem SharedOp.withScalar {g : State → Result} (hg : SharedOp g) (hx : s.params.xlen = .x32)
    (hr : r.setWidth 32 = s.port.rs1.setWidth 32) : g (s.withScalar r) = withPort (s.withScalar r).port (g s) := by
  have hrhs := rhsValue_withScalar hx hr
  have hat := scalarAt_withScalar hx hr
  have hoffset := scalarOffset_withScalar hx hr
  cases hg with
  | same f a | wideMac f a | narrow f a | carryIn f a | merge f a | move a =>
    simp only [sameOp, wideMacOp, narrowOp, carryInOp, mergeOp, moveOp, elemRequest_withScalar, hrhs,
      State.withScalar_params, State.withScalar_vstart]
  | compare p a | producer p a =>
    simp only [compareOp, carryProducerOp, bitRequest_withScalar, hrhs, State.withScalar_params]
  | ext k f o => exact elemRequest_withScalar _ _ _ _ _ s r
  | slideUp offset a => exact slideUpOp_withScalar offset a s r
  | slideDown offset a => exact slideDownOp_withScalar offset a s r
  | slideUpScalar a => simp only [hoffset, slideUpOp_withScalar]
  | slideDownScalar a => simp only [hoffset, slideDownOp_withScalar]
  | slide1Up a | slide1Down a =>
    simp only [slide1UpOp, slide1DownOp, slideOp, elemRequest_withScalar, hat, State.withScalar_params,
      State.withScalar_vstart, State.withScalar_vl]

theorem exec_withScalar (i : Instr) (hx : s.params.xlen = .x32) (hr : r.setWidth 32 = s.port.rs1.setWidth 32) :
    exec i (s.withScalar r) = withPort (s.withScalar r).port (exec i s) :=
  (exec_sharedOp i).withScalar hx hr

end

/-- Settles O22: the two answers differ in the port alone. -/
theorem upperScalarBitsAreIgnoredAtXlen32 : Obligations.UpperScalarBitsAreIgnoredAtXlen32 := by
  unfold Obligations.UpperScalarBitsAreIgnoredAtXlen32
  intro i s r hx hr s'
  have hexec : exec i s' = withPort s'.port (exec i s) := exec_withScalar i hx hr
  exact ⟨fun t ht => by rw [hexec, ht, withPort], fun e he => by rw [hexec, he, withPort]⟩

end Sys2Proof.Machine

namespace Sys2Proof.Machine

/-! ## The checks of each validation class (R102, R103, R306) -/

theorem validate_eq (p : Plan) : validate p =
    if vs1Aligned p = false then .src1VecIll
    else if vs2Aligned p = false then .src2VecIll
    else if vdAligned p = false then .dstVecIll
    else if vs1OverlapOk p = false then .wideningOverlapVdVs1Ill
    else if vs2WidenOk p = false then .wideningOverlapVdVs2Ill
    else if vs2NarrowOk p = false then .narrowingOverlapVdVs2Ill
    else .noExcept := by
  simp only [validate, Bool.not_eq_true']

theorem Rhs.reg_eq_some_iff {r : Rhs} {v : VReg} : r.reg = some v ↔ r = .vec v := by
  cases r <;> simp [Rhs.reg]

theorem maskedPlan_of_reg {a : Args} {r : Option VReg} (h : a.rhs.reg = r) (k : VClass) :
    maskedPlan k a = ⟨k, a.vd, r, some a.vs2, a.cfg, a.me, false⟩ := by
  rw [maskedPlan, h]

theorem vs1Aligned_eq_false_iff (p : Plan) :
    vs1Aligned p = false ↔ ∃ v, p.vs1 = some v ∧ aligned v (lmul p.cfg) = false := by
  cases h : p.vs1 <;> simp [vs1Aligned, h]

/-- A move checks its `vs1` where it has one, then its destination. -/
theorem validate_movePlan (a : MoveArgs) : validate (movePlan a) =
    if vs1Aligned (movePlan a) = false then .src1VecIll
    else if aligned a.vd (lmul a.cfg) = false then .dstVecIll else .noExcept :=
  validate_eq _

theorem vs1Aligned_movePlan_eq_false_iff (a : MoveArgs) :
    vs1Aligned (movePlan a) = false ↔ ∃ v, a.rhs = .vec v ∧ aligned v (lmul a.cfg) = false := by
  simp only [vs1Aligned_eq_false_iff, movePlan, Rhs.reg_eq_some_iff]

/-- Settles O14: the class and the operands a request has say which checks of `validate` are made; the others pass. -/
theorem firstFailingCheckGivesTheStatus : Obligations.FirstFailingCheckGivesTheStatus := by
  unfold Obligations.FirstFailingCheckGivesTheStatus
  refine ⟨fun a => rfl, fun a v hv => ?vec, fun a hnone => ?noVec, fun a up => validate_eq _, fun f o => validate_eq _,
    fun a => ?move, by decide, by decide⟩
  case vec =>
    have hplan := maskedPlan_of_reg (Rhs.reg_eq_some_iff.mpr hv)
    simp only [hplan]
    exact ⟨validate_eq _, validate_eq _, validate_eq _, validate_eq _⟩
  case noVec =>
    have hplan := maskedPlan_of_reg hnone
    simp only [hplan]
    exact ⟨validate_eq _, validate_eq _, validate_eq _, validate_eq _⟩
  case move =>
    rw [validate_movePlan]
    exact if_congr (vs1Aligned_movePlan_eq_false_iff a) rfl rfl

end Sys2Proof.Machine

namespace Sys2Proof.Machine

/-! ## The right operand of each form (R73, R74, R78, R107) -/

/-- Truncating an integer to 64 bits first does not change its low bits. -/
theorem setWidth_ofInt_of_le {V W : Nat} (h : W ≤ V) (n : Int) : (BitVec.ofInt V n).setWidth W = BitVec.ofInt W n := by
  have hdvd : (2 ^ W : Nat) ∣ 2 ^ V := Nat.pow_dvd_pow 2 h
  apply BitVec.eq_of_toInt_eq
  rw [BitVec.toInt_setWidth, BitVec.toNat_ofInt, BitVec.toInt_ofInt]
  have hpos : (0 : Int) ≤ n % ((2 ^ V : Nat) : Int) := Int.emod_nonneg _ (by positivity)
  rw [Int.toNat_of_nonneg hpos]
  rw [Int.bmod_def, Int.bmod_def, Int.emod_emod_of_dvd n (by exact_mod_cast hdvd)]

theorem scalar64_x64 {s : State} (h : s.params.xlen = .x64) : scalar64 s = BitVec.ofInt 64 s.port.rs1.toInt := by
  rw [scalar64, h, BitVec.ofInt_toInt]

theorem scalar64_x32 {s : State} (h : s.params.xlen = .x32) :
    scalar64 s = BitVec.ofInt 64 (s.port.rs1.setWidth 32).toInt := by
  rw [scalar64, h, BitVec.signExtend]

theorem rhsValue_scalar {s : State} {n : Int} {w : Nat} (hn : scalar64 s = BitVec.ofInt 64 n) (hw : 8 * w ≤ 64)
    (m : Memory) (i : Nat) : rhsValue s m .scalar i w = BitVec.ofInt (8 * w) n := by
  rw [rhsValue, scalarAt, hn, setWidth_ofInt_of_le hw]

theorem rhsValue_same_of_no_reg {r : Rhs} (h : r.reg = none) (s : State) (m : Memory) (i j w : Nat) :
    rhsValue s m r i w = rhsValue s m r j w := by
  cases r with
  | vec v => cases h
  | scalar => rfl
  | simm imm => rfl
  | uimm imm => rfl

/-- Settles O21: both widths of the scalar port give the 64-bit form of one integer, of which an element takes the low
bits; an immediate of 5 bits fits every element. -/
theorem rightOperandOfEachForm : Obligations.RightOperandOfEachForm := by
  unfold Obligations.RightOperandOfEachForm
  intro s m i j w hw
  have hwidth : 5 ≤ 8 * w ∧ 8 * w ≤ 64 := by
    simp only [List.mem_cons, List.not_mem_nil, or_false] at hw
    omega
  obtain ⟨himm, hscalar⟩ := hwidth
  refine ⟨fun v => rfl, fun hx => ?_, fun hx => ?_, fun imm => ?_, fun imm => ?_, fun r hr => ?_⟩
  · exact rhsValue_scalar (scalar64_x64 hx) hscalar m i
  · exact rhsValue_scalar (scalar64_x32 hx) hscalar m i
  · exact BitVec.toInt_signExtend_of_le himm
  · exact BitVec.toNat_setWidth_of_le himm
  · exact rhsValue_same_of_no_reg hr s m i j w

/-! ## A loop with nothing left to do (R104, R105) -/

theorem elemLoop_empty {lo hi : Nat} (h : hi ≤ lo) (vlenb : Nat) (vd : VReg) (wd : Nat) (gate : Memory → Nat → Bool)
    (val : Memory → Nat → BitVec (8 * wd) × Bool) (m : Memory) : elemLoop vlenb vd wd gate val lo hi m = (m, false) := by
  rw [elemLoop, Nat.sub_eq_zero_of_le h, forRange]

theorem bitLoop_empty {lo hi : Nat} (h : hi ≤ lo) (vlenb : Nat) (vd : VReg) (gate bit : Memory → Nat → Bool)
    (m : Memory) : bitLoop vlenb vd gate bit lo hi m = (m, false) := by
  rw [bitLoop, Nat.sub_eq_zero_of_le h, forRange]

section

variable {p : Plan} {s : State}

/-- A request whose element loop starts at or past `VL` writes nothing. -/
theorem elemRequest_empty (hr : Runs p s) {lo : Nat} (h : s.port.vl ≤ lo) (wd : Nat) (gate : Memory → Nat → Bool)
    (val : Memory → Nat → BitVec (8 * wd) × Bool) :
    elemRequest p wd lo gate val s = .next (s.succeed (s.vrf, false)) := by
  rw [elemRequest, runRequest_runs hr, elemLoop_empty h]

theorem bitRequest_empty (hr : Runs p s) (h : s.port.vl ≤ s.port.vstart) (gate bit : Memory → Nat → Bool) :
    bitRequest p gate bit s = .next (s.succeed (s.vrf, false)) := by
  rw [bitRequest, runRequest_runs hr, bitLoop_empty h]

end

theorem exec_writes_nothing_of_vl_zero {i : Instr} {s : State} (hr : Runs (planOf i) s) (h : s.port.vl = 0) :
    exec i s = .next (s.succeed (s.vrf, false)) := by
  cases exec_shape i s with
  | elem wd lo gate val hx _ => rw [hx, elemRequest_empty hr (by omega)]
  | bit gate bit hx _ => rw [hx, bitRequest_empty hr (by omega)]

/-- The loop of every instruction but `vmerge` starts at `VSTART`, or above it in a slide-up by an offset (R109, R263). -/
theorem exec_writes_nothing_of_vl_le_vstart {i : Instr} {s : State} (hr : Runs (planOf i) s) (h : s.port.vl ≤ s.port.vstart)
    (hvv : ∀ o, i ≠ .vmergeVVM o) (hvx : ∀ o, i ≠ .vmergeVXM o) (hvi : ∀ o, i ≠ .vmergeVIM o) :
    exec i s = .next (s.succeed (s.vrf, false)) := by
  cases i with
  | vmergeVVM o => exact absurd rfl (hvv o)
  | vmergeVXM o => exact absurd rfl (hvx o)
  | vmergeVIM o => exact absurd rfl (hvi o)
  | vslideupVX o | vslideupVI o => exact elemRequest_empty hr (h.trans (Nat.le_max_left _ _)) _ _ _
  | vmseqVV o | vmseqVX o | vmseqVI o | vmsneVV o | vmsneVX o | vmsneVI o | vmsltuVV o | vmsltuVX o | vmsltuVI o
  | vmsltVV o | vmsltVX o | vmsltVI o | vmsleuVV o | vmsleuVX o | vmsleuVI o | vmsleVV o | vmsleVX o | vmsleVI o
  | vmsgtuVV o | vmsgtuVX o | vmsgtuVI o | vmsgtVV o | vmsgtVX o | vmsgtVI o | vmsgeuVV o | vmsgeuVX o | vmsgeuVI o
  | vmsgeVV o | vmsgeVX o | vmsgeVI o | vmadcVV o | vmadcVVM o | vmadcVX o | vmadcVXM o | vmadcVI o | vmadcVIM o
  | vmsbcVV o | vmsbcVVM o | vmsbcVX o | vmsbcVXM o => exact bitRequest_empty hr h _ _
  | _ => exact elemRequest_empty hr h _ _ _

/-- Settles O47: the request is carried out and its loop has no iteration. -/
theorem nothingIsWrittenFromVstartAtOrPastVl : Obligations.NothingIsWrittenFromVstartAtOrPastVl := by
  unfold Obligations.NothingIsWrittenFromVstartAtOrPastVl
  rintro i s hr hvl (⟨hvv, hvx, hvi⟩ | hzero)
  · exact exec_writes_nothing_of_vl_le_vstart hr hvl hvv hvx hvi
  · exact exec_writes_nothing_of_vl_zero hr hzero

end Sys2Proof.Machine

namespace Sys2Proof.Machine

/-! ## What the two loops leave alone, whatever their iterations read (R111) -/

theorem read_elemSteps_other {b : Nat} {vd : VReg} {wd : Nat} {gate : Memory → Nat → Bool}
    {val : Memory → Nat → BitVec (8 * wd) × Bool} {lo n x : Nat} {out : Memory × Bool} (hm : Memory.wf out.1 = true)
    (hx : ∀ i, lo ≤ i → i < lo + n → ¬ InElem b vd wd i x) :
    Memory.read (forRange (elemStep b vd wd gate val) lo n out).1 x = Memory.read out.1 x := by
  induction n with
  | zero => rfl
  | succ n ih =>
    have hprev := ih fun i hlo hi => hx i hlo (by omega)
    rw [forRange_succ, elemStep]
    split
    · rw [read_writeElem_other (wf_elemSteps lo n out hm) _ _ _ _ _ _ (hx (lo + n) (by omega) (by omega)), hprev]
    · exact hprev

theorem read_bitSteps_other {b : Nat} {vd : VReg} {gate bit : Memory → Nat → Bool} {lo n x : Nat} {m : Memory}
    (hm : Memory.wf m = true) (hx : ∀ i, lo ≤ i → i < lo + n → x ≠ bitAddr b vd i) :
    Memory.read (forRange (bitStep b vd gate bit) lo n m) x = Memory.read m x := by
  induction n with
  | zero => rfl
  | succ n ih =>
    have hprev := ih fun i hlo hi => hx i hlo (by omega)
    rw [forRange_succ, bitStep]
    split
    · rw [read_writeBit_other (wf_bitSteps lo n m hm) _ _ _ _ _ (hx (lo + n) (by omega) (by omega)), hprev]
    · exact hprev

/-! ## The destination group holds all that a request writes (R49, R111, R113) -/

theorem destMult_of_shape {p : Plan} {sh : Shape} (h : vdShape p.cls p.cfg = some sh) : destMult p = sh.emul := by
  rw [destMult, h]

theorem destMult_maskDst {p : Plan} (h : p.cls = .maskDst) : destMult p = ⟨1, 1⟩ := by
  rw [destMult, h, vdShape]

theorem elem_inDestination {p : Plan} {q : Params} {wd i x : Nat} (hc : cfgError p.cls p.cfg = none)
    (hw : DestWidth p wd) (hi : i < vlmax q p.cfg) (hx : InElem q.vlenb p.vd wd i x) : InDestination p q.vlenb x := by
  obtain ⟨m, hsh, -⟩ := hw
  have hfits : Fits q.vlenb m (8 * wd / 8) i := shape_fits hc (vdShape_mem_shapes hsh) hi
  rw [Nat.mul_div_cancel_left wd (by decide)] at hfits
  rw [InDestination, destMult_of_shape hsh]
  exact inElem_group hfits hx

theorem bit_inDestination {p : Plan} {q : Params} {i : Nat} (hc : cfgError p.cls p.cfg = none) (hcls : p.cls = .maskDst)
    (hi : i < vlmax q p.cfg) : InDestination p q.vlenb (bitAddr q.vlenb p.vd i) := by
  rw [InDestination, destMult_maskDst hcls]
  exact ⟨Nat.le_add_right _ _, bitAddr_inside p.vd hc hi⟩

section

variable {p : Plan} {s t : State} {x : Nat}

/-- A request leaves a byte as it was where what it writes when it is carried out does. -/
theorem runRequest_read_other {body : Memory → Memory × Bool} (h : runRequest p body s = .next t)
    (hbody : Admitted p s → Memory.read (body s.vrf).1 x = Memory.read s.vrf x) :
    Memory.read t.vrf x = Memory.read s.vrf x := by
  obtain ⟨-, -, rfl⟩ | ⟨⟨ha, -⟩, rfl⟩ := runRequest_next h
  case inl => rfl
  case inr => exact hbody ha

theorem elemRequest_read_other {wd lo : Nat} {gate : Memory → Nat → Bool} {val : Memory → Nat → BitVec (8 * wd) × Bool}
    (hs : s.inv) (hw : DestWidth p wd) (h : elemRequest p wd lo gate val s = .next t)
    (hx : ¬ InDestination p s.params.vlenb x) : Memory.read t.vrf x = Memory.read s.vrf x := by
  refine runRequest_read_other h fun ⟨hc, hvl⟩ => read_elemSteps_other hs.1 fun i hlo hi hin => hx ?_
  exact elem_inDestination hc hw (by omega) hin

theorem bitRequest_read_other {gate bit : Memory → Nat → Bool} (hs : s.inv) (hcls : p.cls = .maskDst)
    (h : bitRequest p gate bit s = .next t) (hx : ¬ InDestination p s.params.vlenb x) :
    Memory.read t.vrf x = Memory.read s.vrf x := by
  refine runRequest_read_other h fun ⟨hc, hvl⟩ => read_bitSteps_other hs.1 fun i hlo hi hat => hx ?_
  rw [hat]
  exact bit_inDestination hc hcls (by omega)

end

/-- Settles O48: the instruction writes elements of its destination group, or mask bits of its one register. -/
theorem onlyTheDestinationGroupIsWritten : Obligations.OnlyTheDestinationGroupIsWritten := by
  unfold Obligations.OnlyTheDestinationGroupIsWritten
  intro i s t hs h x hx
  cases exec_shape i s with
  | elem wd lo gate val hexec hw => exact elemRequest_read_other hs hw (hexec ▸ h) hx
  | bit gate bit hexec hcls => exact bitRequest_read_other hs hcls (hexec ▸ h) hx

/-! ## A request reads the parameters, the register file and the request port alone (R118) -/

/-- An answer given in another state: its register file and response, the rest as it is there. -/
def answerIn (s' : State) : Result → Result
  | .next t => .next { s' with vrf := t.vrf, response := t.response }
  | .fault e => .fault e
  | .refused e => .refused e

section

variable {s s' : State}

theorem runRequest_answerIn (hp : s.params = s'.params) (hv : s.vrf = s'.vrf) (hq : s.port = s'.port) (p : Plan)
    (body : Memory → Memory × Bool) : runRequest p body s' = answerIn s' (runRequest p body s) := by
  rw [runRequest, runRequest, ← hp, ← hv, ← hq]
  cases cfgError p.cls p.cfg with
  | some e => rfl
  | none =>
    dsimp only
    split
    · rfl
    · split
      · rw [answerIn, State.raise_vrf, hv]; rfl
      · cases hazard p <;> rfl

/-- What a shared operation carries out is fixed by the parameters and the request port: two states that agree in these
give one and the same body. -/
theorem SharedOp.same_body {g : State → Result} (hg : SharedOp g) (hp : s.params = s'.params) (hq : s.port = s'.port) :
    ∃ p body, g s = runRequest p body s ∧ g s' = runRequest p body s' := by
  obtain ⟨params, vrf, port, response, readData, inputs, freeCount⟩ := s
  obtain ⟨params', vrf', port', response', readData', inputs', freeCount'⟩ := s'
  obtain rfl : params = params' := hp
  obtain rfl : port = port' := hq
  cases hg <;> exact ⟨_, _, rfl, rfl⟩

theorem exec_answerIn (i : Instr) (hp : s.params = s'.params) (hv : s.vrf = s'.vrf) (hq : s.port = s'.port) :
    exec i s' = answerIn s' (exec i s) := by
  obtain ⟨p, body, hs, hs'⟩ := (exec_sharedOp i).same_body hp hq
  rw [hs, hs', runRequest_answerIn hp hv hq]

end

theorem runRequest_ne_fault (p : Plan) (body : Memory → Memory × Bool) (s : State) (e : Fault) :
    runRequest p body s ≠ .fault e := by
  obtain ⟨_, -, hr⟩ | ⟨-, -, hr⟩ | ⟨-, -, hr⟩ | ⟨_, -, -, -, hr⟩ | ⟨-, hr⟩ := runRequest_cases p body s
  all_goals rw [hr]; exact nofun

theorem exec_ne_fault (i : Instr) (s : State) (e : Fault) : exec i s ≠ .fault e := by
  obtain ⟨body, hx⟩ := exec_runRequest i s
  rw [hx]
  exact runRequest_ne_fault _ _ _ _

/-- Settles O50: the second state's answer is the first one's, given there. -/
theorem requestIsAFunctionOfItsInputs : Obligations.RequestIsAFunctionOfItsInputs := by
  unfold Obligations.RequestIsAFunctionOfItsInputs
  intro i s s' hp hv hq
  have hanswer : exec i s' = answerIn s' (exec i s) := exec_answerIn i hp hv hq
  exact ⟨fun t ht => by rw [hanswer, ht, answerIn], fun e he => by rw [hanswer, he, answerIn], exec_ne_fault i s⟩

end Sys2Proof.Machine

namespace Sys2Proof.Machine

/-! ## A row of the operation map: its code and what it performs (R70, R80, R130) -/

/-- An instruction's code is read off its fields: the descriptor gives them back (R70). -/
theorem hasCode_of_fields {i : Instr} {op : BitVec 8} {form : BitVec 2} (hop : i.fields.op = op)
    (hform : i.fields.form = form) : HasCode i op form := by
  have hfields : Fields.ofWord (encode i) = i.fields := Fields.ofWord_toWord i.fields
  constructor
  · calc (encode i).extractLsb' 0 8 = (Fields.ofWord (encode i)).op := rfl
      _ = op := by rw [hfields, hop]
  · calc (encode i).extractLsb' 8 2 = (Fields.ofWord (encode i)).form := rfl
      _ = form := by rw [hfields, hform]

/-- At the four element widths `f` gives the results of `g`, whatever the old destination element (R42, R130). -/
abbrev AgreesAtWidths (f : (W : Nat) → BitVec W → BitVec W → BitVec W)
    (g : (W : Nat) → BitVec W → BitVec W → BitVec W → BitVec W) : Prop :=
  ∀ W ∈ [8, 16, 32, 64], ∀ x y d : BitVec W, f W x y = g W x y d

/-- A row whose meaning is a plain operation, its element function described by `g`. -/
theorem plainOp_row {i : Instr} {a : Args} {op : BitVec 8} {form : BitVec 2}
    {f : (W : Nat) → BitVec W → BitVec W → BitVec W} {g : (W : Nat) → BitVec W → BitVec W → BitVec W → BitVec W}
    (hop : i.fields.op = op) (hform : i.fields.form = form) (hx : ∀ s, exec i s = plainOp f a s)
    (hfg : AgreesAtWidths f g) : HasCode i op form ∧ PerformsSame i a g :=
  ⟨hasCode_of_fields hop hform, (plainOp_performs hx).congr hfg⟩

/-! ## Sums and differences (R131 to R133) -/

theorem vaddElem_eq (W : Nat) (a b : BitVec W) : vaddElem W a b = BitVec.ofInt W (a.toNat + b.toNat) := rfl

theorem vsubElem_eq (W : Nat) (a b : BitVec W) : vsubElem W a b = BitVec.ofInt W (a.toNat - b.toNat) := rfl

theorem vrsubElem_eq (W : Nat) (a b : BitVec W) : vrsubElem W a b = BitVec.ofInt W (b.toNat - a.toNat) := rfl

/-- Settles O23: seven rows, each a plain operation of one of the three element functions. -/
theorem addAndSubtractResults : Obligations.AddAndSubtractResults := by
  unfold Obligations.AddAndSubtractResults
  intro add sub rsub
  have hadd : AgreesAtWidths vaddElem add := fun W _ x y _ => vaddElem_eq W x y
  have hsub : AgreesAtWidths vsubElem sub := fun W _ x y _ => vsubElem_eq W x y
  have hrsub : AgreesAtWidths vrsubElem rsub := fun W _ x y _ => vrsubElem_eq W x y
  exact ⟨fun o => plainOp_row rfl rfl (exec_vaddVV o) hadd, fun o => plainOp_row rfl rfl (exec_vaddVX o) hadd,
    fun o => plainOp_row rfl rfl (exec_vaddVI o) hadd,
    fun o => plainOp_row rfl rfl (exec_vsubVV o) hsub, fun o => plainOp_row rfl rfl (exec_vsubVX o) hsub,
    fun o => plainOp_row rfl rfl (exec_vrsubVX o) hrsub, fun o => plainOp_row rfl rfl (exec_vrsubVI o) hrsub⟩

/-! ## Bitwise operations (R134 to R136) -/

theorem vandElem_eq (W : Nat) (a b : BitVec W) : vandElem W a b = BitVec.ofNat W (a.toNat &&& b.toNat) := by
  rw [vandElem, ← BitVec.toNat_and, BitVec.ofNat_toNat, BitVec.setWidth_eq]

theorem vorElem_eq (W : Nat) (a b : BitVec W) : vorElem W a b = BitVec.ofNat W (a.toNat ||| b.toNat) := by
  rw [vorElem, ← BitVec.toNat_or, BitVec.ofNat_toNat, BitVec.setWidth_eq]

theorem vxorElem_eq (W : Nat) (a b : BitVec W) : vxorElem W a b = BitVec.ofNat W (a.toNat ^^^ b.toNat) := by
  rw [vxorElem, ← BitVec.toNat_xor, BitVec.ofNat_toNat, BitVec.setWidth_eq]

/-- Settles O24: nine rows, each a plain operation of one of the three element functions. -/
theorem logicResults : Obligations.LogicResults := by
  unfold Obligations.LogicResults
  intro conj disj excl
  have hand : AgreesAtWidths vandElem conj := fun W _ x y _ => vandElem_eq W x y
  have hor : AgreesAtWidths vorElem disj := fun W _ x y _ => vorElem_eq W x y
  have hxor : AgreesAtWidths vxorElem excl := fun W _ x y _ => vxorElem_eq W x y
  exact ⟨fun o => plainOp_row rfl rfl (exec_vandVV o) hand, fun o => plainOp_row rfl rfl (exec_vandVX o) hand,
    fun o => plainOp_row rfl rfl (exec_vandVI o) hand,
    fun o => plainOp_row rfl rfl (exec_vorVV o) hor, fun o => plainOp_row rfl rfl (exec_vorVX o) hor,
    fun o => plainOp_row rfl rfl (exec_vorVI o) hor,
    fun o => plainOp_row rfl rfl (exec_vxorVV o) hxor, fun o => plainOp_row rfl rfl (exec_vxorVX o) hxor,
    fun o => plainOp_row rfl rfl (exec_vxorVI o) hxor⟩

/-! ## Shifts (R137 to R139) -/

/-- The element widths are powers of two, so the low `log2(W)` bits of an operand are its residue modulo `W` (R137). -/
theorem shiftAmount_eq_mod {W V : Nat} (hW : W ∈ [8, 16, 32, 64]) (b : BitVec V) : shiftAmount W b = b.toNat % W := by
  have hpow : ∀ W ∈ [8, 16, 32, 64], 2 ^ Nat.log2 W = W := by decide
  rw [shiftAmount, hpow W hW]

theorem vsllElem_eq {W : Nat} (hW : W ∈ [8, 16, 32, 64]) (a b : BitVec W) :
    vsllElem W a b = BitVec.ofNat W (a.toNat * 2 ^ (b.toNat % W)) := by
  rw [vsllElem, trunc, U, shiftAmount_eq_mod hW, ← BitVec.ofInt_natCast]
  push_cast
  rfl

theorem vsrlElem_eq {W : Nat} (hW : W ∈ [8, 16, 32, 64]) (a b : BitVec W) :
    vsrlElem W a b = BitVec.ofNat W (a.toNat / 2 ^ (b.toNat % W)) := by
  rw [vsrlElem, trunc, U, shiftAmount_eq_mod hW, ← BitVec.ofInt_natCast]
  push_cast
  rfl

/-- By a positive divisor the model's quotient is the floor, so the shift rounds toward minus infinity (R139). -/
theorem vsraElem_eq {W : Nat} (hW : W ∈ [8, 16, 32, 64]) (a b : BitVec W) :
    vsraElem W a b = BitVec.ofInt W (Int.fdiv a.toInt (2 ^ (b.toNat % W))) := by
  have hpos : (0 : Int) ≤ 2 ^ (b.toNat % W) := by positivity
  rw [vsraElem, trunc, S, shiftAmount_eq_mod hW, Int.fdiv_eq_ediv_of_nonneg _ hpos]

/-- Settles O25: nine rows, each a plain operation of one of the three element functions. -/
theorem shiftResults : Obligations.ShiftResults := by
  unfold Obligations.ShiftResults
  intro left right arith
  have hsll : AgreesAtWidths vsllElem left := fun _ hW x y _ => vsllElem_eq hW x y
  have hsrl : AgreesAtWidths vsrlElem right := fun _ hW x y _ => vsrlElem_eq hW x y
  have hsra : AgreesAtWidths vsraElem arith := fun _ hW x y _ => vsraElem_eq hW x y
  exact ⟨fun o => plainOp_row rfl rfl (exec_vsllVV o) hsll, fun o => plainOp_row rfl rfl (exec_vsllVX o) hsll,
    fun o => plainOp_row rfl rfl (exec_vsllVI o) hsll,
    fun o => plainOp_row rfl rfl (exec_vsrlVV o) hsrl, fun o => plainOp_row rfl rfl (exec_vsrlVX o) hsrl,
    fun o => plainOp_row rfl rfl (exec_vsrlVI o) hsrl,
    fun o => plainOp_row rfl rfl (exec_vsraVV o) hsra, fun o => plainOp_row rfl rfl (exec_vsraVX o) hsra,
    fun o => plainOp_row rfl rfl (exec_vsraVI o) hsra⟩

/-! ## Minimum and maximum (R140 to R143) -/

/-- The unsigned reading is ordered as the natural number it is (R6). -/
theorem U_le_iff {W : Nat} (a b : BitVec W) : U a ≤ U b ↔ a.toNat ≤ b.toNat := Int.ofNat_le

theorem vminuElem_eq (W : Nat) (a b : BitVec W) : vminuElem W a b = if a.toNat ≤ b.toNat then a else b :=
  if_congr (U_le_iff a b) rfl rfl

theorem vmaxuElem_eq (W : Nat) (a b : BitVec W) : vmaxuElem W a b = if b.toNat ≤ a.toNat then a else b :=
  if_congr (U_le_iff b a) rfl rfl

theorem vminElem_eq (W : Nat) (a b : BitVec W) : vminElem W a b = if a.toInt ≤ b.toInt then a else b := rfl

theorem vmaxElem_eq (W : Nat) (a b : BitVec W) : vmaxElem W a b = if b.toInt ≤ a.toInt then a else b := rfl

/-- Settles O26: eight rows, each a plain operation of one of the four element functions. -/
theorem minMaxResults : Obligations.MinMaxResults := by
  unfold Obligations.MinMaxResults
  intro minu min maxu max
  have hminu : AgreesAtWidths vminuElem minu := fun W _ x y _ => vminuElem_eq W x y
  have hmin : AgreesAtWidths vminElem min := fun W _ x y _ => vminElem_eq W x y
  have hmaxu : AgreesAtWidths vmaxuElem maxu := fun W _ x y _ => vmaxuElem_eq W x y
  have hmax : AgreesAtWidths vmaxElem max := fun W _ x y _ => vmaxElem_eq W x y
  exact ⟨fun o => plainOp_row rfl rfl (exec_vminuVV o) hminu, fun o => plainOp_row rfl rfl (exec_vminuVX o) hminu,
    fun o => plainOp_row rfl rfl (exec_vminVV o) hmin, fun o => plainOp_row rfl rfl (exec_vminVX o) hmin,
    fun o => plainOp_row rfl rfl (exec_vmaxuVV o) hmaxu, fun o => plainOp_row rfl rfl (exec_vmaxuVX o) hmaxu,
    fun o => plainOp_row rfl rfl (exec_vmaxVV o) hmax, fun o => plainOp_row rfl rfl (exec_vmaxVX o) hmax⟩

end Sys2Proof.Machine

namespace Sys2Proof.Machine

/-! ## Zero and sign extension (R161 to R166) -/

/-- A row whose meaning is an extension by `k`, its element function described by `g`. -/
theorem extOp_row {i : Instr} {k : ExtFactor} {o : OpExt} {op : BitVec 8} {form : BitVec 2}
    {f g : (V W : Nat) → BitVec V → BitVec W} (hop : i.fields.op = op) (hform : i.fields.form = form)
    (hx : ∀ s, exec i s = extOp k f o s) (hfg : ∀ V W (x : BitVec V), f V W x = g V W x) :
    HasCode i op form ∧ PerformsExt i k o g :=
  ⟨hasCode_of_fields hop hform, (extOp_performs hx).congr hfg⟩

theorem vzextVf2Elem_eq (V W : Nat) (a : BitVec V) : vzextVf2Elem V W a = BitVec.ofNat W a.toNat :=
  (BitVec.ofNat_toNat W a).symm

theorem vzextVf4Elem_eq (V W : Nat) (a : BitVec V) : vzextVf4Elem V W a = BitVec.ofNat W a.toNat :=
  (BitVec.ofNat_toNat W a).symm

theorem vzextVf8Elem_eq (V W : Nat) (a : BitVec V) : vzextVf8Elem V W a = BitVec.ofNat W a.toNat :=
  (BitVec.ofNat_toNat W a).symm

theorem vsextVf2Elem_eq (V W : Nat) (a : BitVec V) : vsextVf2Elem V W a = BitVec.ofInt W a.toInt := rfl

theorem vsextVf4Elem_eq (V W : Nat) (a : BitVec V) : vsextVf4Elem V W a = BitVec.ofInt W a.toInt := rfl

theorem vsextVf8Elem_eq (V W : Nat) (a : BitVec V) : vsextVf8Elem V W a = BitVec.ofInt W a.toInt := rfl

/-- Settles O27: six rows, each an extension by its own factor. -/
theorem extensionResults : Obligations.ExtensionResults := by
  unfold Obligations.ExtensionResults
  intro zext sext
  exact ⟨fun o => extOp_row rfl rfl (exec_vzextVf2 o) vzextVf2Elem_eq,
    fun o => extOp_row rfl rfl (exec_vzextVf4 o) vzextVf4Elem_eq,
    fun o => extOp_row rfl rfl (exec_vzextVf8 o) vzextVf8Elem_eq,
    fun o => extOp_row rfl rfl (exec_vsextVf2 o) vsextVf2Elem_eq,
    fun o => extOp_row rfl rfl (exec_vsextVf4 o) vsextVf4Elem_eq,
    fun o => extOp_row rfl rfl (exec_vsextVf8 o) vsextVf8Elem_eq⟩

/-! ## Widening sums and differences (R167 to R170) -/

/-- A row whose meaning is a widening operation of two operands, its element function described by `g`, whatever the
old destination element. -/
theorem wideOp_row {i : Instr} {a : Args} {op : BitVec 8} {form : BitVec 2}
    {f : (W V : Nat) → BitVec W → BitVec W → BitVec V} {g : (W V : Nat) → BitVec W → BitVec W → BitVec V → BitVec V}
    (hop : i.fields.op = op) (hform : i.fields.form = form) (hx : ∀ s, exec i s = wideOp f a s)
    (hfg : ∀ W V (x y : BitVec W) (d : BitVec V), f W V x y = g W V x y d) : HasCode i op form ∧ PerformsWide i a g :=
  ⟨hasCode_of_fields hop hform, (wideOp_performs hx).congr fun W _ V _ => hfg W V⟩

theorem vwadduElem_eq (W V : Nat) (a b : BitVec W) : vwadduElem W V a b = BitVec.ofInt V (a.toNat + b.toNat) := rfl

theorem vwaddElem_eq (W V : Nat) (a b : BitVec W) : vwaddElem W V a b = BitVec.ofInt V (a.toInt + b.toInt) := rfl

theorem vwsubuElem_eq (W V : Nat) (a b : BitVec W) : vwsubuElem W V a b = BitVec.ofInt V (a.toNat - b.toNat) := rfl

theorem vwsubElem_eq (W V : Nat) (a b : BitVec W) : vwsubElem W V a b = BitVec.ofInt V (a.toInt - b.toInt) := rfl

/-- Settles O28: eight rows, each a widening operation of one of the four element functions. -/
theorem wideningAddAndSubtractResults : Obligations.WideningAddAndSubtractResults := by
  unfold Obligations.WideningAddAndSubtractResults
  intro addu add subu sub
  have haddu : ∀ W V x y d, vwadduElem W V x y = addu W V x y d := fun W V x y _ => vwadduElem_eq W V x y
  have hadd : ∀ W V x y d, vwaddElem W V x y = add W V x y d := fun W V x y _ => vwaddElem_eq W V x y
  have hsubu : ∀ W V x y d, vwsubuElem W V x y = subu W V x y d := fun W V x y _ => vwsubuElem_eq W V x y
  have hsub : ∀ W V x y d, vwsubElem W V x y = sub W V x y d := fun W V x y _ => vwsubElem_eq W V x y
  exact ⟨fun o => wideOp_row rfl rfl (exec_vwadduVV o) haddu, fun o => wideOp_row rfl rfl (exec_vwadduVX o) haddu,
    fun o => wideOp_row rfl rfl (exec_vwaddVV o) hadd, fun o => wideOp_row rfl rfl (exec_vwaddVX o) hadd,
    fun o => wideOp_row rfl rfl (exec_vwsubuVV o) hsubu, fun o => wideOp_row rfl rfl (exec_vwsubuVX o) hsubu,
    fun o => wideOp_row rfl rfl (exec_vwsubVV o) hsub, fun o => wideOp_row rfl rfl (exec_vwsubVX o) hsub⟩

/-! ## Narrowing shifts (R171, R172) -/

/-- At the four element widths, the left operand twice as wide, `f` gives the results of `g` (R160). -/
abbrev AgreesNarrowing (f g : (V W : Nat) → BitVec V → BitVec W → BitVec W) : Prop :=
  ∀ W ∈ [8, 16, 32, 64], ∀ V, V = 2 * W → ∀ (x : BitVec V) (y : BitVec W), f V W x y = g V W x y

/-- A row whose meaning is a narrowing operation, its element function described by `g`. -/
theorem narrowOp_row {i : Instr} {a : Args} {op : BitVec 8} {form : BitVec 2}
    {f g : (V W : Nat) → BitVec V → BitVec W → BitVec W} (hop : i.fields.op = op) (hform : i.fields.form = form)
    (hx : ∀ s, exec i s = narrowOp f a s) (hfg : AgreesNarrowing f g) : HasCode i op form ∧ PerformsNarrow i a g :=
  ⟨hasCode_of_fields hop hform, (narrowOp_performs hx).congr hfg⟩

/-- Twice an element width is a power of two as well, so the low `log2(2*SEW)` bits of an operand are its residue modulo
`2*SEW` (R171). -/
theorem shiftAmount_double_eq_mod {W V N : Nat} (hW : W ∈ [8, 16, 32, 64]) (hV : V = 2 * W) (b : BitVec N) :
    shiftAmount V b = b.toNat % V := by
  have hpow : ∀ W ∈ [8, 16, 32, 64], 2 ^ Nat.log2 (2 * W) = 2 * W := by decide
  rw [shiftAmount, hV, hpow W hW]

theorem vnsrlElem_eq {W V : Nat} (hW : W ∈ [8, 16, 32, 64]) (hV : V = 2 * W) (a : BitVec V) (b : BitVec W) :
    vnsrlElem V W a b = BitVec.ofNat W (a.toNat / 2 ^ (b.toNat % V)) := by
  rw [vnsrlElem, trunc, U, shiftAmount_double_eq_mod hW hV, ← BitVec.ofInt_natCast]
  push_cast
  rfl

/-- By a positive divisor the model's quotient is the floor, so the shift rounds toward minus infinity (R172). -/
theorem vnsraElem_eq {W V : Nat} (hW : W ∈ [8, 16, 32, 64]) (hV : V = 2 * W) (a : BitVec V) (b : BitVec W) :
    vnsraElem V W a b = BitVec.ofInt W (Int.fdiv a.toInt (2 ^ (b.toNat % V))) := by
  have hpos : (0 : Int) ≤ 2 ^ (b.toNat % V) := by positivity
  rw [vnsraElem, trunc, S, shiftAmount_double_eq_mod hW hV, Int.fdiv_eq_ediv_of_nonneg _ hpos]

/-- Settles O29: six rows, each a narrowing operation of one of the two element functions. -/
theorem narrowingShiftResults : Obligations.NarrowingShiftResults := by
  unfold Obligations.NarrowingShiftResults
  intro logical arith
  have hnsrl : AgreesNarrowing vnsrlElem logical := fun _ hW _ hV x y => vnsrlElem_eq hW hV x y
  have hnsra : AgreesNarrowing vnsraElem arith := fun _ hW _ hV x y => vnsraElem_eq hW hV x y
  exact ⟨fun o => narrowOp_row rfl rfl (exec_vnsrlWV o) hnsrl, fun o => narrowOp_row rfl rfl (exec_vnsrlWX o) hnsrl,
    fun o => narrowOp_row rfl rfl (exec_vnsrlWI o) hnsrl,
    fun o => narrowOp_row rfl rfl (exec_vnsraWV o) hnsra, fun o => narrowOp_row rfl rfl (exec_vnsraWX o) hnsra,
    fun o => narrowOp_row rfl rfl (exec_vnsraWI o) hnsra⟩

end Sys2Proof.Machine

namespace Sys2Proof.Machine

/-! ## Products of two elements (R191 to R194) -/

theorem U_mul (W : Nat) (a b : BitVec W) : U a * U b = ((a.toNat * b.toNat : Nat) : Int) := (Int.natCast_mul _ _).symm

theorem vmulElem_eq (W : Nat) (a b : BitVec W) : vmulElem W a b = BitVec.ofNat W (a.toNat * b.toNat) := by
  rw [vmulElem, trunc, U_mul, BitVec.ofInt_natCast]

theorem vmulhElem_eq (W : Nat) (a b : BitVec W) :
    vmulhElem W a b = (BitVec.ofInt (2 * W) (a.toInt * b.toInt)).extractLsb' W W := rfl

theorem vmulhuElem_eq (W : Nat) (a b : BitVec W) :
    vmulhuElem W a b = (BitVec.ofNat (2 * W) (a.toNat * b.toNat)).extractLsb' W W := by
  rw [vmulhuElem, trunc, U_mul, BitVec.ofInt_natCast]

theorem vmulhsuElem_eq (W : Nat) (a b : BitVec W) :
    vmulhsuElem W a b = (BitVec.ofInt (2 * W) (a.toInt * b.toNat)).extractLsb' W W := rfl

/-- Settles O30: eight rows, each a plain operation of one of the four element functions. -/
theorem multiplyResults : Obligations.MultiplyResults := by
  unfold Obligations.MultiplyResults
  intro low highS highU highSU
  have hlow : AgreesAtWidths vmulElem low := fun W _ x y _ => vmulElem_eq W x y
  have hhighS : AgreesAtWidths vmulhElem highS := fun W _ x y _ => vmulhElem_eq W x y
  have hhighU : AgreesAtWidths vmulhuElem highU := fun W _ x y _ => vmulhuElem_eq W x y
  have hhighSU : AgreesAtWidths vmulhsuElem highSU := fun W _ x y _ => vmulhsuElem_eq W x y
  exact ⟨fun o => plainOp_row rfl rfl (exec_vmulVV o) hlow, fun o => plainOp_row rfl rfl (exec_vmulVX o) hlow,
    fun o => plainOp_row rfl rfl (exec_vmulhVV o) hhighS, fun o => plainOp_row rfl rfl (exec_vmulhVX o) hhighS,
    fun o => plainOp_row rfl rfl (exec_vmulhuVV o) hhighU, fun o => plainOp_row rfl rfl (exec_vmulhuVX o) hhighU,
    fun o => plainOp_row rfl rfl (exec_vmulhsuVV o) hhighSU, fun o => plainOp_row rfl rfl (exec_vmulhsuVX o) hhighSU⟩

/-! ## Quotients and remainders (R195 to R198) -/

theorem trunc_neg_one (W : Nat) : trunc W (-1) = BitVec.allOnes W :=
  BitVec.ofInt_neg.trans BitVec.neg_one_eq_allOnes

theorem U_eq_zero_iff {W : Nat} (v : BitVec W) : U v = 0 ↔ v.toNat = 0 := Int.natCast_eq_zero

theorem vdivuElem_eq (W : Nat) (a b : BitVec W) :
    vdivuElem W a b = if b.toNat = 0 then BitVec.allOnes W else BitVec.ofNat W (a.toNat / b.toNat) :=
  if_congr (U_eq_zero_iff b) (trunc_neg_one W) (BitVec.ofInt_natCast W (a.toNat / b.toNat))

theorem vdivElem_eq (W : Nat) (a b : BitVec W) : vdivElem W a b = if b.toInt = 0 then BitVec.allOnes W else
    if a.toInt = -2 ^ (W - 1) ∧ b.toInt = -1 then a else BitVec.ofInt W (Int.tdiv a.toInt b.toInt) := by
  rw [vdivElem, trunc_neg_one]
  rfl

theorem vremuElem_eq (W : Nat) (a b : BitVec W) :
    vremuElem W a b = if b.toNat = 0 then a else BitVec.ofNat W (a.toNat % b.toNat) :=
  if_congr (U_eq_zero_iff b) rfl (BitVec.ofInt_natCast W (a.toNat % b.toNat))

theorem vremElem_eq (W : Nat) (a b : BitVec W) : vremElem W a b = if b.toInt = 0 then a else
    if a.toInt = -2 ^ (W - 1) ∧ b.toInt = -1 then 0 else
    BitVec.ofInt W (a.toInt - Int.tdiv a.toInt b.toInt * b.toInt) := rfl

/-- Settles O31: eight rows, each a plain operation of one of the four element functions. -/
theorem divideAndRemainderResults : Obligations.DivideAndRemainderResults := by
  unfold Obligations.DivideAndRemainderResults
  intro divu div remu rem
  have hdivu : AgreesAtWidths vdivuElem divu := fun W _ x y _ => vdivuElem_eq W x y
  have hdiv : AgreesAtWidths vdivElem div := fun W _ x y _ => vdivElem_eq W x y
  have hremu : AgreesAtWidths vremuElem remu := fun W _ x y _ => vremuElem_eq W x y
  have hrem : AgreesAtWidths vremElem rem := fun W _ x y _ => vremElem_eq W x y
  exact ⟨fun o => plainOp_row rfl rfl (exec_vdivuVV o) hdivu, fun o => plainOp_row rfl rfl (exec_vdivuVX o) hdivu,
    fun o => plainOp_row rfl rfl (exec_vdivVV o) hdiv, fun o => plainOp_row rfl rfl (exec_vdivVX o) hdiv,
    fun o => plainOp_row rfl rfl (exec_vremuVV o) hremu, fun o => plainOp_row rfl rfl (exec_vremuVX o) hremu,
    fun o => plainOp_row rfl rfl (exec_vremVV o) hrem, fun o => plainOp_row rfl rfl (exec_vremVX o) hrem⟩

/-! ## The signed division identity (R196, R198)

The library's signed division and remainder of bit vectors round toward zero as well; outside the two special cases the
element functions are these two, and what the library says of their signed readings is used. -/

/-- The overflow case, read as numbers, is the division of the least number by minus one. -/
theorem ne_intMin_or_ne_neg_one {W : Nat} {a b : BitVec W} (hW : 0 < W)
    (ho : ¬ (a.toInt = -2 ^ (W - 1) ∧ b.toInt = -1)) : a ≠ BitVec.intMin W ∨ b ≠ -1#W := by
  by_contra hc
  push Not at hc
  obtain ⟨ha, hb⟩ := hc
  refine ho ⟨?_, ?_⟩
  · rw [ha, BitVec.toInt_intMin_of_pos hW]
  · rw [hb, BitVec.neg_one_eq_allOnes, BitVec.toInt_allOnes, if_pos hW]

/-- Outside the special cases the quotient fits, so that its signed reading is the quotient of the numbers. -/
theorem toInt_vdivElem {W : Nat} {a b : BitVec W} (hW : 0 < W) (hb : b.toInt ≠ 0)
    (ho : ¬ (a.toInt = -2 ^ (W - 1) ∧ b.toInt = -1)) : (vdivElem W a b).toInt = a.toInt.tdiv b.toInt := by
  have hquot : (a.sdiv b).toInt = a.toInt.tdiv b.toInt :=
    BitVec.toInt_sdiv_of_ne_or_ne a b (ne_intMin_or_ne_neg_one hW ho)
  rw [vdivElem_eq, if_neg hb, if_neg ho, ← hquot, BitVec.ofInt_toInt]

/-- Outside the special cases the signed reading of the remainder is the remainder of the numbers. -/
theorem toInt_vremElem {W : Nat} {a b : BitVec W} (hb : b.toInt ≠ 0)
    (ho : ¬ (a.toInt = -2 ^ (W - 1) ∧ b.toInt = -1)) : (vremElem W a b).toInt = a.toInt.tmod b.toInt := by
  have hrem : a.toInt - a.toInt.tdiv b.toInt * b.toInt = (a.srem b).toInt := by
    rw [BitVec.toInt_srem, Int.tmod_def, mul_comm]
  rw [vremElem_eq, if_neg hb, if_neg ho, hrem, BitVec.ofInt_toInt, BitVec.toInt_srem]

theorem abs_tmod_lt {x y : Int} (hy : y ≠ 0) : |x.tmod y| < |y| := by
  rw [Int.abs_eq_natAbs, Int.abs_eq_natAbs, Int.natAbs_tmod]
  exact_mod_cast Nat.mod_lt _ (Int.natAbs_pos.mpr hy)

theorem tmod_eq_zero_or_neg_iff (x y : Int) : x.tmod y = 0 ∨ (x.tmod y < 0 ↔ x < 0) := by
  have hsign := Int.sign_tmod x y
  split at hsign
  · exact .inl (Int.sign_eq_zero_iff_zero.mp hsign)
  · refine .inr ?_
    rw [← Int.sign_eq_neg_one_iff_neg, hsign, Int.sign_eq_neg_one_iff_neg]

/-- Settles O46: the two results are the quotient toward zero and its remainder, of which the three claims hold. -/
theorem signedDivisionIdentity : Obligations.SignedDivisionIdentity := by
  intro W a b hW hb ho
  rw [toInt_vdivElem hW hb ho, toInt_vremElem hb ho]
  exact ⟨(Int.tdiv_mul_add_tmod _ _).symm, abs_tmod_lt hb, tmod_eq_zero_or_neg_iff _ _⟩

/-! ## Widening products (R199 to R201) -/

theorem vwmuluElem_eq (W V : Nat) (a b : BitVec W) : vwmuluElem W V a b = BitVec.ofInt V (a.toNat * b.toNat) := rfl

theorem vwmulElem_eq (W V : Nat) (a b : BitVec W) : vwmulElem W V a b = BitVec.ofInt V (a.toInt * b.toInt) := rfl

theorem vwmulsuElem_eq (W V : Nat) (a b : BitVec W) : vwmulsuElem W V a b = BitVec.ofInt V (a.toInt * b.toNat) := rfl

/-- Settles O32: six rows, each a widening operation of one of the three element functions. -/
theorem wideningMultiplyResults : Obligations.WideningMultiplyResults := by
  unfold Obligations.WideningMultiplyResults
  intro mulu mul mulsu
  have hmulu : ∀ W V x y d, vwmuluElem W V x y = mulu W V x y d := fun W V x y _ => vwmuluElem_eq W V x y
  have hmul : ∀ W V x y d, vwmulElem W V x y = mul W V x y d := fun W V x y _ => vwmulElem_eq W V x y
  have hmulsu : ∀ W V x y d, vwmulsuElem W V x y = mulsu W V x y d := fun W V x y _ => vwmulsuElem_eq W V x y
  exact ⟨fun o => wideOp_row rfl rfl (exec_vwmuluVV o) hmulu, fun o => wideOp_row rfl rfl (exec_vwmuluVX o) hmulu,
    fun o => wideOp_row rfl rfl (exec_vwmulVV o) hmul, fun o => wideOp_row rfl rfl (exec_vwmulVX o) hmul,
    fun o => wideOp_row rfl rfl (exec_vwmulsuVV o) hmulsu, fun o => wideOp_row rfl rfl (exec_vwmulsuVX o) hmulsu⟩

/-! ## Multiply-accumulate (R202 to R205) -/

/-- A row whose meaning reads the old destination element too, its element function described by `g`. -/
theorem macOp_row {i : Instr} {a : Args} {op : BitVec 8} {form : BitVec 2}
    {f g : (W : Nat) → BitVec W → BitVec W → BitVec W → BitVec W} (hop : i.fields.op = op)
    (hform : i.fields.form = form) (hx : ∀ s, exec i s = macOp f a s) (hfg : ∀ W x y d, f W x y d = g W x y d) :
    HasCode i op form ∧ PerformsSame i a g :=
  ⟨hasCode_of_fields hop hform, (macOp_performs hx).congr fun W _ => hfg W⟩

theorem vmaccElem_eq (W : Nat) (a b d : BitVec W) :
    vmaccElem W a b d = BitVec.ofInt W (d.toNat + a.toNat * b.toNat) := rfl

theorem vnmsacElem_eq (W : Nat) (a b d : BitVec W) :
    vnmsacElem W a b d = BitVec.ofInt W (d.toNat - a.toNat * b.toNat) := rfl

theorem vmaddElem_eq (W : Nat) (a b d : BitVec W) :
    vmaddElem W a b d = BitVec.ofInt W (a.toNat + d.toNat * b.toNat) := rfl

theorem vnmsubElem_eq (W : Nat) (a b d : BitVec W) :
    vnmsubElem W a b d = BitVec.ofInt W (a.toNat - d.toNat * b.toNat) := rfl

/-- Settles O33: eight rows, each a multiply-accumulate of one of the four element functions. -/
theorem multiplyAccumulateResults : Obligations.MultiplyAccumulateResults :=
  ⟨fun o => macOp_row rfl rfl (exec_vmaccVV o) vmaccElem_eq, fun o => macOp_row rfl rfl (exec_vmaccVX o) vmaccElem_eq,
    fun o => macOp_row rfl rfl (exec_vnmsacVV o) vnmsacElem_eq,
    fun o => macOp_row rfl rfl (exec_vnmsacVX o) vnmsacElem_eq,
    fun o => macOp_row rfl rfl (exec_vmaddVV o) vmaddElem_eq, fun o => macOp_row rfl rfl (exec_vmaddVX o) vmaddElem_eq,
    fun o => macOp_row rfl rfl (exec_vnmsubVV o) vnmsubElem_eq,
    fun o => macOp_row rfl rfl (exec_vnmsubVX o) vnmsubElem_eq⟩

/-! ## Widening multiply-accumulate (R206 to R209) -/

/-- A row whose meaning is a widening operation that reads the old destination element too, its element function
described by `g`. -/
theorem wideMacOp_row {i : Instr} {a : Args} {op : BitVec 8} {form : BitVec 2}
    {f g : (W V : Nat) → BitVec W → BitVec W → BitVec V → BitVec V} (hop : i.fields.op = op)
    (hform : i.fields.form = form) (hx : ∀ s, exec i s = wideMacOp f a s)
    (hfg : ∀ W V x y d, f W V x y d = g W V x y d) : HasCode i op form ∧ PerformsWide i a g :=
  ⟨hasCode_of_fields hop hform, (wideMacOp_performs hx).congr fun W _ V _ => hfg W V⟩

theorem vwmaccuElem_eq (W V : Nat) (a b : BitVec W) (d : BitVec V) :
    vwmaccuElem W V a b d = BitVec.ofInt V (d.toNat + b.toNat * a.toNat) := rfl

theorem vwmaccElem_eq (W V : Nat) (a b : BitVec W) (d : BitVec V) :
    vwmaccElem W V a b d = BitVec.ofInt V (d.toNat + b.toInt * a.toInt) := rfl

theorem vwmaccsuElem_eq (W V : Nat) (a b : BitVec W) (d : BitVec V) :
    vwmaccsuElem W V a b d = BitVec.ofInt V (d.toNat + b.toInt * a.toNat) := rfl

theorem vwmaccusElem_eq (W V : Nat) (a b : BitVec W) (d : BitVec V) :
    vwmaccusElem W V a b d = BitVec.ofInt V (d.toNat + b.toNat * a.toInt) := rfl

/-- Settles O34: seven rows, each a widening multiply-accumulate of one of the four element functions. -/
theorem wideningMultiplyAccumulateResults : Obligations.WideningMultiplyAccumulateResults :=
  ⟨fun o => wideMacOp_row rfl rfl (exec_vwmaccuVV o) vwmaccuElem_eq,
    fun o => wideMacOp_row rfl rfl (exec_vwmaccuVX o) vwmaccuElem_eq,
    fun o => wideMacOp_row rfl rfl (exec_vwmaccVV o) vwmaccElem_eq,
    fun o => wideMacOp_row rfl rfl (exec_vwmaccVX o) vwmaccElem_eq,
    fun o => wideMacOp_row rfl rfl (exec_vwmaccsuVV o) vwmaccsuElem_eq,
    fun o => wideMacOp_row rfl rfl (exec_vwmaccsuVX o) vwmaccsuElem_eq,
    fun o => wideMacOp_row rfl rfl (exec_vwmaccusVX o) vwmaccusElem_eq⟩

end Sys2Proof.Machine

namespace Sys2Proof.Machine

/-! ## Comparisons to mask bits (R230 to R240) -/

/-- A row whose meaning is a comparison, its bit predicate described by `q`. -/
theorem compareOp_row {i : Instr} {a : Args} {op : BitVec 8} {form : BitVec 2}
    {p q : (W : Nat) → BitVec W → BitVec W → Bool} (hop : i.fields.op = op) (hform : i.fields.form = form)
    (hx : ∀ s, exec i s = compareOp p a s) (hpq : ∀ W x y, p W x y = q W x y) :
    HasCode i op form ∧ PerformsCompare i a q :=
  ⟨hasCode_of_fields hop hform, (compareOp_performs hx).congr fun W _ => hpq W⟩

/-- The unsigned reading is ordered strictly as the natural number it is (R6). -/
theorem U_lt_iff {W : Nat} (a b : BitVec W) : U a < U b ↔ a.toNat < b.toNat := Int.ofNat_lt

theorem vmseqBit_eq (W : Nat) (a b : BitVec W) : vmseqBit W a b = decide (a.toNat = b.toNat) :=
  decide_eq_decide.mpr BitVec.toNat_eq

theorem vmsneBit_eq (W : Nat) (a b : BitVec W) : vmsneBit W a b = decide (a.toNat ≠ b.toNat) :=
  decide_eq_decide.mpr (not_congr BitVec.toNat_eq)

theorem vmsltuBit_eq (W : Nat) (a b : BitVec W) : vmsltuBit W a b = decide (a.toNat < b.toNat) :=
  decide_eq_decide.mpr (U_lt_iff a b)

theorem vmsleuBit_eq (W : Nat) (a b : BitVec W) : vmsleuBit W a b = decide (a.toNat ≤ b.toNat) :=
  decide_eq_decide.mpr (U_le_iff a b)

theorem vmsgtuBit_eq (W : Nat) (a b : BitVec W) : vmsgtuBit W a b = decide (a.toNat > b.toNat) :=
  decide_eq_decide.mpr (U_lt_iff b a)

theorem vmsgeuBit_eq (W : Nat) (a b : BitVec W) : vmsgeuBit W a b = decide (a.toNat ≥ b.toNat) :=
  decide_eq_decide.mpr (U_le_iff b a)

/-- Settles O35: eighteen rows, each a comparison by one of the six bit predicates. -/
theorem equalityAndUnsignedComparisonResults : Obligations.EqualityAndUnsignedComparisonResults :=
  ⟨fun o => compareOp_row rfl rfl (exec_vmseqVV o) vmseqBit_eq, fun o => compareOp_row rfl rfl (exec_vmseqVX o) vmseqBit_eq,
    fun o => compareOp_row rfl rfl (exec_vmseqVI o) vmseqBit_eq,
    fun o => compareOp_row rfl rfl (exec_vmsneVV o) vmsneBit_eq, fun o => compareOp_row rfl rfl (exec_vmsneVX o) vmsneBit_eq,
    fun o => compareOp_row rfl rfl (exec_vmsneVI o) vmsneBit_eq,
    fun o => compareOp_row rfl rfl (exec_vmsltuVV o) vmsltuBit_eq,
    fun o => compareOp_row rfl rfl (exec_vmsltuVX o) vmsltuBit_eq,
    fun o => compareOp_row rfl rfl (exec_vmsltuVI o) vmsltuBit_eq,
    fun o => compareOp_row rfl rfl (exec_vmsleuVV o) vmsleuBit_eq,
    fun o => compareOp_row rfl rfl (exec_vmsleuVX o) vmsleuBit_eq,
    fun o => compareOp_row rfl rfl (exec_vmsleuVI o) vmsleuBit_eq,
    fun o => compareOp_row rfl rfl (exec_vmsgtuVV o) vmsgtuBit_eq,
    fun o => compareOp_row rfl rfl (exec_vmsgtuVX o) vmsgtuBit_eq,
    fun o => compareOp_row rfl rfl (exec_vmsgtuVI o) vmsgtuBit_eq,
    fun o => compareOp_row rfl rfl (exec_vmsgeuVV o) vmsgeuBit_eq,
    fun o => compareOp_row rfl rfl (exec_vmsgeuVX o) vmsgeuBit_eq,
    fun o => compareOp_row rfl rfl (exec_vmsgeuVI o) vmsgeuBit_eq⟩

theorem vmsltBit_eq (W : Nat) (a b : BitVec W) : vmsltBit W a b = decide (a.toInt < b.toInt) := rfl

theorem vmsleBit_eq (W : Nat) (a b : BitVec W) : vmsleBit W a b = decide (a.toInt ≤ b.toInt) := rfl

theorem vmsgtBit_eq (W : Nat) (a b : BitVec W) : vmsgtBit W a b = decide (a.toInt > b.toInt) := rfl

theorem vmsgeBit_eq (W : Nat) (a b : BitVec W) : vmsgeBit W a b = decide (a.toInt ≥ b.toInt) := rfl

/-- Settles O36: twelve rows, each a comparison by one of the four bit predicates. -/
theorem signedComparisonResults : Obligations.SignedComparisonResults :=
  ⟨fun o => compareOp_row rfl rfl (exec_vmsltVV o) vmsltBit_eq, fun o => compareOp_row rfl rfl (exec_vmsltVX o) vmsltBit_eq,
    fun o => compareOp_row rfl rfl (exec_vmsltVI o) vmsltBit_eq,
    fun o => compareOp_row rfl rfl (exec_vmsleVV o) vmsleBit_eq, fun o => compareOp_row rfl rfl (exec_vmsleVX o) vmsleBit_eq,
    fun o => compareOp_row rfl rfl (exec_vmsleVI o) vmsleBit_eq,
    fun o => compareOp_row rfl rfl (exec_vmsgtVV o) vmsgtBit_eq, fun o => compareOp_row rfl rfl (exec_vmsgtVX o) vmsgtBit_eq,
    fun o => compareOp_row rfl rfl (exec_vmsgtVI o) vmsgtBit_eq,
    fun o => compareOp_row rfl rfl (exec_vmsgeVV o) vmsgeBit_eq, fun o => compareOp_row rfl rfl (exec_vmsgeVX o) vmsgeBit_eq,
    fun o => compareOp_row rfl rfl (exec_vmsgeVI o) vmsgeBit_eq⟩

/-! ## Add with carry and subtract with borrow (R241, R242) -/

/-- The statements count the carry in, the model holds it as a bit: 0 and 1 are the two readings of that bit. -/
theorem toNat_decide_eq_one {c : Nat} (hc : c < 2) : (decide (c = 1)).toNat = c := by
  obtain rfl | rfl : c = 0 ∨ c = 1 := by omega
  · rfl
  · rfl

/-- A row whose meaning adds a bit of `v0`, its element function described by `g`. -/
theorem carryInOp_row {i : Instr} {a : Args} {op : BitVec 8} {form : BitVec 2}
    {f : (W : Nat) → BitVec W → BitVec W → Bool → BitVec W} {g : (W : Nat) → BitVec W → BitVec W → Nat → BitVec W}
    (hop : i.fields.op = op) (hform : i.fields.form = form) (hx : ∀ s, exec i s = carryInOp f a s)
    (hfg : ∀ W x y c, f W x y c = g W x y c.toNat) : HasCode i op form ∧ PerformsCarry i a InLoop g :=
  ⟨hasCode_of_fields hop hform, (carryInOp_performs hx).congr fun W _ x y _ hc =>
    (hfg W x y _).trans (congrArg (g W x y) (toNat_decide_eq_one hc))⟩

theorem vadcElem_eq (W : Nat) (a b : BitVec W) (c : Bool) :
    vadcElem W a b c = BitVec.ofNat W (a.toNat + b.toNat + c.toNat) := by
  rw [vadcElem, trunc, U, U, ← BitVec.ofInt_natCast]
  push_cast
  rfl

theorem vsbcElem_eq (W : Nat) (a b : BitVec W) (c : Bool) :
    vsbcElem W a b c = BitVec.ofInt W (a.toNat - b.toNat - c.toNat) := rfl

/-- Settles O37: five rows, each the sum or the difference with a bit of `v0`. -/
theorem addWithCarryResults : Obligations.AddWithCarryResults :=
  ⟨fun o => carryInOp_row rfl rfl (exec_vadcVVM o) vadcElem_eq, fun o => carryInOp_row rfl rfl (exec_vadcVXM o) vadcElem_eq,
    fun o => carryInOp_row rfl rfl (exec_vadcVIM o) vadcElem_eq,
    fun o => carryInOp_row rfl rfl (exec_vsbcVVM o) vsbcElem_eq,
    fun o => carryInOp_row rfl rfl (exec_vsbcVXM o) vsbcElem_eq⟩

/-! ## Carry and borrow producers (R243, R244) -/

/-- A row whose meaning produces a carry or a borrow, its bit predicate described by `q`. -/
theorem carryProducerOp_row {i : Instr} {a : Args} {op : BitVec 8} {form : BitVec 2}
    {p : (W : Nat) → BitVec W → BitVec W → Bool → Bool} {q : (W : Nat) → BitVec W → BitVec W → Nat → Bool}
    (hop : i.fields.op = op) (hform : i.fields.form = form) (hx : ∀ s, exec i s = carryProducerOp p a s)
    (hpq : ∀ W x y c, p W x y c = q W x y c.toNat) : HasCode i op form ∧ PerformsProducer i a q :=
  ⟨hasCode_of_fields hop hform, (carryProducerOp_performs hx).congr fun W _ x y _ hc =>
    (hpq W x y _).trans (congrArg (q W x y) (toNat_decide_eq_one hc))⟩

theorem vmadcBit_eq (W : Nat) (a b : BitVec W) (c : Bool) :
    vmadcBit W a b c = decide (2 ^ W ≤ a.toNat + b.toNat + c.toNat) :=
  decide_eq_decide.mpr (by unfold U; exact_mod_cast Iff.rfl)

theorem vmsbcBit_eq (W : Nat) (a b : BitVec W) (c : Bool) :
    vmsbcBit W a b c = decide (a.toNat < b.toNat + c.toNat) :=
  decide_eq_decide.mpr (by unfold U; exact_mod_cast Iff.rfl)

/-- Bit 10 of a descriptor is its `me` field (R70). -/
theorem getLsbD_encode_me {i : Instr} {me : Bool} (h : i.fields.me = me) : (encode i).getLsbD 10 = me :=
  calc (encode i).getLsbD 10 = (Fields.ofWord i.fields.toWord).me := rfl
    _ = me := by rw [Fields.ofWord_toWord, h]

/-- Settles O38: ten rows, each a carry or a borrow, and the `me` bit that tells the two modes of a form apart. -/
theorem carryAndBorrowProducerResults : Obligations.CarryAndBorrowProducerResults :=
  ⟨fun o => carryProducerOp_row rfl rfl (exec_vmadcVV o) vmadcBit_eq,
    fun o => carryProducerOp_row rfl rfl (exec_vmadcVVM o) vmadcBit_eq,
    fun o => carryProducerOp_row rfl rfl (exec_vmadcVX o) vmadcBit_eq,
    fun o => carryProducerOp_row rfl rfl (exec_vmadcVXM o) vmadcBit_eq,
    fun o => carryProducerOp_row rfl rfl (exec_vmadcVI o) vmadcBit_eq,
    fun o => carryProducerOp_row rfl rfl (exec_vmadcVIM o) vmadcBit_eq,
    fun o => carryProducerOp_row rfl rfl (exec_vmsbcVV o) vmsbcBit_eq,
    fun o => carryProducerOp_row rfl rfl (exec_vmsbcVVM o) vmsbcBit_eq,
    fun o => carryProducerOp_row rfl rfl (exec_vmsbcVX o) vmsbcBit_eq,
    fun o => carryProducerOp_row rfl rfl (exec_vmsbcVXM o) vmsbcBit_eq,
    fun _ => getLsbD_encode_me rfl, fun _ => getLsbD_encode_me rfl, fun _ => getLsbD_encode_me rfl,
    fun _ => getLsbD_encode_me rfl, fun _ => getLsbD_encode_me rfl, fun _ => getLsbD_encode_me rfl,
    fun _ => getLsbD_encode_me rfl, fun _ => getLsbD_encode_me rfl, fun _ => getLsbD_encode_me rfl,
    fun _ => getLsbD_encode_me rfl⟩

/-! ## The bit equations of carry and borrow (R245)

The carry is the bit of weight `2^W` that the wrapped sum loses, the borrow the one that the wrapped difference gains. The
top bits of the operands and of the result then decide it: they say of each whether it is at least half of `2^W`. `2^W` is
even at a positive width, so two values below half of it and a carry in stay below `2^W`. -/

theorem vmadcBit_eq_true_iff {W : Nat} {a b : BitVec W} {c : Bool} :
    vmadcBit W a b c = true ↔ 2 ^ W ≤ a.toNat + b.toNat + c.toNat := by
  rw [vmadcBit_eq, decide_eq_true_iff]

theorem vmsbcBit_eq_true_iff {W : Nat} {a b : BitVec W} {c : Bool} :
    vmsbcBit W a b c = true ↔ a.toNat < b.toNat + c.toNat := by
  rw [vmsbcBit_eq, decide_eq_true_iff]

/-- The exact sum is the wrapped sum and the carry. -/
theorem toNat_vadcElem_add_carry (W : Nat) (a b : BitVec W) (c : Bool) :
    (vadcElem W a b c).toNat + (if vmadcBit W a b c = true then 2 ^ W else 0) = a.toNat + b.toNat + c.toNat := by
  have ha := a.isLt
  have hb := b.isLt
  have hc := c.toNat_le
  rw [vadcElem_eq, BitVec.toNat_ofNat]
  split
  case isTrue h =>
    have hle := vmadcBit_eq_true_iff.mp h
    rw [Nat.mod_eq_sub_mod hle, Nat.mod_eq_of_lt (by omega)]
    omega
  case isFalse h =>
    have hlt := mt vmadcBit_eq_true_iff.mpr h
    rw [Nat.mod_eq_of_lt (by omega), Nat.add_zero]

/-- The wrapped difference is the exact difference and the borrow. -/
theorem toNat_vsbcElem_add_subtrahend (W : Nat) (a b : BitVec W) (c : Bool) :
    (vsbcElem W a b c).toNat + b.toNat + c.toNat = a.toNat + (if vmsbcBit W a b c = true then 2 ^ W else 0) := by
  have ha := a.isLt
  have hb := b.isLt
  have hc := c.toNat_le
  rw [vsbcElem_eq, BitVec.toNat_ofInt]
  push_cast
  split
  case isTrue h =>
    have hlt := vmsbcBit_eq_true_iff.mp h
    zify at ha hb hc hlt
    rw [← Int.add_emod_right, Int.emod_eq_of_lt (by omega) (by omega)]
    zify
    omega
  case isFalse h =>
    have hle := mt vmsbcBit_eq_true_iff.mpr h
    zify at ha hb hc hle
    rw [Int.emod_eq_of_lt (by omega) (by omega)]
    omega

/-- The top bit of a value says whether it is at least half of `2^W`. -/
theorem msb_eq_decide_half {W : Nat} (x : BitVec W) : x.msb = decide (2 ^ W ≤ 2 * x.toNat) := by
  rw [Bool.eq_iff_iff, BitVec.msb_eq_true_iff_two_mul_ge, decide_eq_true_iff]

/-- The carry of R245, by whether the sum wraps. -/
theorem vmadcBit_eq_msb {W : Nat} (hW : 0 < W) (a b : BitVec W) (c : Bool) :
    vmadcBit W a b c = (a.msb && b.msb || (a.msb ^^ b.msb) && !(vadcElem W a b c).msb) := by
  have hsum := toNat_vadcElem_add_carry W a b c
  have ha := a.isLt
  have hb := b.isLt
  have hr := (vadcElem W a b c).isLt
  have hc := c.toNat_le
  have heven : 2 ∣ 2 ^ W := dvd_pow_self 2 hW.ne'
  rw [Bool.eq_iff_iff]
  simp only [msb_eq_decide_half, vmadcBit_eq_true_iff, Bool.or_eq_true, Bool.and_eq_true,
    Bool.not_eq_eq_eq_not, Bool.not_true, bne_iff_ne, ne_eq, decide_eq_decide, decide_eq_true_eq,
    decide_eq_false_iff_not] at hsum ⊢
  split at hsum
  case isTrue => omega
  case isFalse => omega

/-- The borrow of R245, by whether the difference wraps. -/
theorem vmsbcBit_eq_msb {W : Nat} (hW : 0 < W) (a b : BitVec W) (c : Bool) :
    vmsbcBit W a b c = (!a.msb && b.msb || !(a.msb ^^ b.msb) && (vsbcElem W a b c).msb) := by
  have hdiff := toNat_vsbcElem_add_subtrahend W a b c
  have ha := a.isLt
  have hb := b.isLt
  have hr := (vsbcElem W a b c).isLt
  have hc := c.toNat_le
  have heven : 2 ∣ 2 ^ W := dvd_pow_self 2 hW.ne'
  rw [Bool.eq_iff_iff]
  simp only [msb_eq_decide_half, vmsbcBit_eq_true_iff, Bool.or_eq_true, Bool.and_eq_true,
    Bool.not_eq_eq_eq_not, Bool.not_true, bne_eq_false_iff_eq, decide_eq_decide, decide_eq_true_eq,
    decide_eq_false_iff_not] at hdiff ⊢
  split at hdiff
  case isTrue => omega
  case isFalse => omega

/-- Settles O44: the equations hold at every positive width. -/
theorem carryAndBorrowBitEquations : Obligations.CarryAndBorrowBitEquations := by
  unfold Obligations.CarryAndBorrowBitEquations
  intro W a b c hW
  have hpos : 0 < W := (by decide : ∀ V ∈ [8, 16, 32, 64], 0 < V) W hW
  exact ⟨vmadcBit_eq_msb hpos a b c, vmsbcBit_eq_msb hpos a b c, vmadcBit_eq_true_iff, vmsbcBit_eq_true_iff⟩

end Sys2Proof.Machine

namespace Sys2Proof.Machine

/-! ## Merge (R260) -/

/-- A row whose meaning merges under the bits of `v0`, its element function described by `g`. -/
theorem mergeOp_row {i : Instr} {a : Args} {op : BitVec 8} {form : BitVec 2}
    {f : (W : Nat) → BitVec W → BitVec W → Bool → BitVec W} {g : (W : Nat) → BitVec W → BitVec W → Nat → BitVec W}
    (hop : i.fields.op = op) (hform : i.fields.form = form) (hx : ∀ s, exec i s = mergeOp f a s)
    (hfg : ∀ W x y c, f W x y c = g W x y c.toNat) :
    HasCode i op form ∧ PerformsCarry i a (fun s k => k < s.port.vl) g :=
  ⟨hasCode_of_fields hop hform, (mergeOp_performs hx).congr fun W _ x y _ hc =>
    (hfg W x y _).trans (congrArg (g W x y) (toNat_decide_eq_one hc))⟩

theorem vmergeElem_eq (W : Nat) (a b : BitVec W) (c : Bool) :
    vmergeElem W a b c = if c.toNat = 1 then b else a := by
  cases c with
  | false => rfl
  | true => rfl

/-- Settles O39: three rows, each a merge by the selector's element function. -/
theorem mergeResults : Obligations.MergeResults :=
  ⟨fun o => mergeOp_row rfl rfl (exec_vmergeVVM o) vmergeElem_eq,
    fun o => mergeOp_row rfl rfl (exec_vmergeVXM o) vmergeElem_eq,
    fun o => mergeOp_row rfl rfl (exec_vmergeVIM o) vmergeElem_eq⟩

/-! ## Move (R261) -/

/-- A row whose meaning is a move. -/
theorem moveOp_row {i : Instr} {a : MoveArgs} {op : BitVec 8} {form : BitVec 2} (hop : i.fields.op = op)
    (hform : i.fields.form = form) (hx : ∀ s, exec i s = moveOp a s) : HasCode i op form ∧ PerformsMove i a :=
  ⟨hasCode_of_fields hop hform, moveOp_performs hx⟩

/-- Settles O40: three rows, each a move of its form's right operand. -/
theorem moveResults : Obligations.MoveResults :=
  ⟨fun o => moveOp_row rfl rfl (exec_vmvVV o), fun o => moveOp_row rfl rfl (exec_vmvVX o),
    fun o => moveOp_row rfl rfl (exec_vmvVI o)⟩

/-! ## Slides (R262 to R266) -/

/-- The offset of form X is the whole unsigned scalar, whatever the element width (R262). -/
theorem scalarOffset_eq (s : State) : scalarOffset s = s.port.rs1.toNat % 2 ^ s.params.xlen.bits := rfl

/-- The scalar that enters a slide by one is the right operand of form X at any index (R107, R265, R266). -/
theorem opR_scalar (s : State) (w k : Nat) : opR s .scalar w k = scalarAt s (8 * w) := rfl

section

variable {i : Instr} {a : Args} {op : BitVec 8} {form : BitVec 2}

/-- A row whose meaning is a slide-up, its offset described by `n` (R263). -/
theorem slideUpOp_row {offset n : State → Nat} (hop : i.fields.op = op) (hform : i.fields.form = form)
    (hx : ∀ s, exec i s = slideUpOp (offset s) a s) (hn : ∀ s, offset s = n s) :
    HasCode i op form ∧
      PerformsSlide i true a n (fun s k => opL s a.vs2 (sewb a.cfg.sew) (k - n s)) :=
  ⟨hasCode_of_fields hop hform, slideUpOp_performs fun s => by rw [hx, hn]⟩

/-- A row whose meaning is a slide-down, its offset described by `n` (R264). -/
theorem slideDownOp_row {offset n : State → Nat} (hop : i.fields.op = op) (hform : i.fields.form = form)
    (hx : ∀ s, exec i s = slideDownOp (offset s) a s) (hn : ∀ s, offset s = n s) :
    HasCode i op form ∧
      PerformsSlide i false a (fun _ => 0) (fun s k =>
        if k + n s < vlmax s.params a.cfg then opL s a.vs2 (sewb a.cfg.sew) (k + n s) else 0) :=
  ⟨hasCode_of_fields hop hform, slideDownOp_performs fun s => by rw [hx, hn]⟩

/-- A row whose meaning is the slide-up by one (R265). -/
theorem slide1UpOp_row (hop : i.fields.op = op) (hform : i.fields.form = form)
    (hx : ∀ s, exec i s = slide1UpOp a s) :
    HasCode i op form ∧
      PerformsSlide i true a (fun _ => 0) (fun s k =>
        if k = 0 then opR s .scalar (sewb a.cfg.sew) k else opL s a.vs2 (sewb a.cfg.sew) (k - 1)) := by
  simp only [opR_scalar]
  exact ⟨hasCode_of_fields hop hform, slide1UpOp_performs hx⟩

/-- A row whose meaning is the slide-down by one (R266). -/
theorem slide1DownOp_row (hop : i.fields.op = op) (hform : i.fields.form = form)
    (hx : ∀ s, exec i s = slide1DownOp a s) :
    HasCode i op form ∧
      PerformsSlide i false a (fun _ => 0) (fun s k =>
        if k + 1 = s.port.vl then opR s .scalar (sewb a.cfg.sew) k
        else opL s a.vs2 (sewb a.cfg.sew) (k + 1)) := by
  simp only [opR_scalar]
  exact ⟨hasCode_of_fields hop hform, slide1DownOp_performs hx⟩

end

/-- Settles O41: six rows; the offset is the scalar's in form X and the unsigned immediate in form I, and the slides by one
take the scalar at their free end. -/
theorem slideResults : Obligations.SlideResults :=
  ⟨fun o => slideUpOp_row rfl rfl (exec_vslideupVX o) scalarOffset_eq,
    fun o => slideUpOp_row rfl rfl (exec_vslideupVI o) fun _ => rfl,
    fun o => slideDownOp_row rfl rfl (exec_vslidedownVX o) scalarOffset_eq,
    fun o => slideDownOp_row rfl rfl (exec_vslidedownVI o) fun _ => rfl,
    fun o => slide1UpOp_row rfl rfl (exec_vslide1upVX o),
    fun o => slide1DownOp_row rfl rfl (exec_vslide1downVX o)⟩

end Sys2Proof.Machine

namespace Sys2Proof.Machine

/-! ## Rounding a half (R286)

The lowest bit of a value decides whether there is anything to round: in two of the modes the increment is then that
bit or none, in the other two the next bit, the parity of the floor, decides. -/

theorem two_mul_average (mode : RoundMode) (v : Int) :
    2 * average mode v = v - v % 2 + 2 * roundIncrement mode v := by
  rw [average]
  omega

theorem roundIncrement_of_even {v : Int} (hv : v % 2 = 0) (mode : RoundMode) : roundIncrement mode v = 0 := by
  cases mode with
  | rnu => exact hv
  | rne => exact if_neg fun h => by omega
  | rdn => rfl
  | rod => exact if_neg fun h => by omega

theorem roundIncrement_rne_of_odd {v : Int} (hv : v % 2 = 1) : roundIncrement .rne v = v / 2 % 2 := by
  rw [roundIncrement]
  split
  case isTrue h => exact h.2.symm
  case isFalse h => omega

theorem roundIncrement_rod_of_odd {v : Int} (hv : v % 2 = 1) : roundIncrement .rod v = 1 - v / 2 % 2 := by
  rw [roundIncrement]
  split
  case isTrue h => omega
  case isFalse h => omega

/-- To the nearest even: the floor when it is even, else the integer above it. -/
theorem average_rne_of_odd {v : Int} (hv : v % 2 = 1) : average .rne v = v / 2 + v / 2 % 2 := by
  rw [average, roundIncrement_rne_of_odd hv]

/-- To odd: the floor when it is odd, else the integer above it. -/
theorem average_rod_of_odd {v : Int} (hv : v % 2 = 1) : average .rod v = v / 2 + (1 - v / 2 % 2) := by
  rw [average, roundIncrement_rod_of_odd hv]

/-- Settles O45: an even value has no increment; an odd one has the increment that its mode reads off the two lowest
bits. -/
theorem roundingModesRoundAsNamed : Obligations.RoundingModesRoundAsNamed := by
  unfold Obligations.RoundingModesRoundAsNamed
  intro v
  constructor
  case left =>
    intro hv mode
    rw [two_mul_average, roundIncrement_of_even hv, hv]
    ring
  case right =>
    intro hv
    have hrnu : roundIncrement .rnu v = 1 := hv
    have hrdn : roundIncrement .rdn v = 0 := rfl
    refine ⟨?up, ?down, ?even, ?odd⟩
    case up =>
      rw [two_mul_average, hrnu]
      omega
    case down =>
      rw [two_mul_average, hrdn]
      omega
    case even =>
      rw [average_rne_of_odd hv]
      omega
    case odd =>
      rw [average_rod_of_odd hv]
      omega

/-! ## Averages (R286 to R290) -/

/-- The model's halves and the statement's: floors by 2, and the two lowest bits of a value are its residue modulo 4. -/
theorem average_eq_roundedHalf (mode : RoundMode) (v : Int) : average mode v = roundedHalf mode v := by
  have hfloor : ∀ x : Int, Int.fdiv x 2 = x / 2 := fun x => Int.fdiv_eq_ediv_of_nonneg x (by decide)
  have hbits : Int.fmod v 4 = v % 4 := Int.fmod_eq_emod_of_nonneg v (by decide)
  cases mode with
  | rnu =>
    rw [average, roundIncrement, roundedHalf, hfloor]
    omega
  | rne =>
    have hthree : v % 2 = 1 ∧ v / 2 % 2 = 1 ↔ v % 4 = 3 := by omega
    rw [average, roundIncrement, roundedHalf, hfloor, hbits, if_congr hthree rfl rfl]
  | rdn => rw [average, roundIncrement, roundedHalf, hfloor, add_zero]
  | rod =>
    have hone : v % 2 = 1 ∧ v / 2 % 2 = 0 ↔ v % 4 = 1 := by omega
    rw [average, roundIncrement, roundedHalf, hfloor, hbits, if_congr hone rfl rfl]

theorem vaadduElem_eq (mode : RoundMode) (W : Nat) (a b : BitVec W) :
    vaadduElem mode W a b = BitVec.ofInt W (roundedHalf mode (a.toNat + b.toNat)) :=
  congrArg (BitVec.ofInt W) (average_eq_roundedHalf mode _)

theorem vaaddElem_eq (mode : RoundMode) (W : Nat) (a b : BitVec W) :
    vaaddElem mode W a b = BitVec.ofInt W (roundedHalf mode (a.toInt + b.toInt)) :=
  congrArg (BitVec.ofInt W) (average_eq_roundedHalf mode _)

theorem vasubuElem_eq (mode : RoundMode) (W : Nat) (a b : BitVec W) :
    vasubuElem mode W a b = BitVec.ofInt W (roundedHalf mode (a.toNat - b.toNat)) :=
  congrArg (BitVec.ofInt W) (average_eq_roundedHalf mode _)

theorem vasubElem_eq (mode : RoundMode) (W : Nat) (a b : BitVec W) :
    vasubElem mode W a b = BitVec.ofInt W (roundedHalf mode (a.toInt - b.toInt)) :=
  congrArg (BitVec.ofInt W) (average_eq_roundedHalf mode _)

/-- The configuration that validation and the element loop go by is the one in the instruction's fields (R70, R75). -/
theorem fields_cfg_eq_planOf_cfg (i : Instr) : i.fields.cfg = (planOf i).cfg := by
  cases i
  all_goals exact Laws.cfg_fields _ _ _ _ _ _ _

/-- Bits 36 and 37 of a descriptor are the code of its rounding mode (R70, R286). -/
theorem extract_encode_vxrm (i : Instr) : (encode i).extractLsb' 36 2 = (planOf i).cfg.vxrm.field :=
  calc (encode i).extractLsb' 36 2 = (Fields.ofWord i.fields.toWord).vxrm := rfl
    _ = i.fields.vxrm := by rw [Fields.ofWord_toWord]
    _ = i.fields.cfg.vxrm.field := (RoundMode.field_ofField _).symm
    _ = (planOf i).cfg.vxrm.field := by rw [fields_cfg_eq_planOf_cfg]

/-- Settles O43: eight rows, each a plain operation of one of the four element functions at the request's rounding mode,
and the place and codes of that mode in the descriptor. -/
theorem averagingResults : Obligations.AveragingResults := by
  unfold Obligations.AveragingResults
  intro sumU sumS diffU diffS
  have hsumU : ∀ mode, AgreesAtWidths (vaadduElem mode) (sumU mode) := fun mode W _ x y _ => vaadduElem_eq mode W x y
  have hsumS : ∀ mode, AgreesAtWidths (vaaddElem mode) (sumS mode) := fun mode W _ x y _ => vaaddElem_eq mode W x y
  have hdiffU : ∀ mode, AgreesAtWidths (vasubuElem mode) (diffU mode) :=
    fun mode W _ x y _ => vasubuElem_eq mode W x y
  have hdiffS : ∀ mode, AgreesAtWidths (vasubElem mode) (diffS mode) := fun mode W _ x y _ => vasubElem_eq mode W x y
  exact ⟨fun o => plainOp_row rfl rfl (exec_vaadduVV o) (hsumU _),
    fun o => plainOp_row rfl rfl (exec_vaadduVX o) (hsumU _),
    fun o => plainOp_row rfl rfl (exec_vaaddVV o) (hsumS _), fun o => plainOp_row rfl rfl (exec_vaaddVX o) (hsumS _),
    fun o => plainOp_row rfl rfl (exec_vasubuVV o) (hdiffU _),
    fun o => plainOp_row rfl rfl (exec_vasubuVX o) (hdiffU _),
    fun o => plainOp_row rfl rfl (exec_vasubVV o) (hdiffS _), fun o => plainOp_row rfl rfl (exec_vasubVX o) (hdiffS _),
    rfl, rfl, rfl, rfl, extract_encode_vxrm⟩

end Sys2Proof.Machine

namespace Sys2Proof.Machine

/-! ## Saturation (R280, R281)

A clamp is a maximum of a minimum, and it changes exactly the values outside its range. -/

theorem clampu_eq (W : Nat) (x : Int) : clampu W x = max 0 (min x (2 ^ W - 1)) := by
  have hpos : (0 : Int) < 2 ^ W := by positivity
  rw [clampu]
  omega

theorem clampu_ne_iff (W : Nat) (x : Int) : clampu W x ≠ x ↔ x < 0 ∨ 2 ^ W - 1 < x := by
  have hpos : (0 : Int) < 2 ^ W := by positivity
  rw [clampu_eq]
  omega

theorem clamps_eq (W : Nat) (x : Int) : clamps W x = max (-2 ^ (W - 1)) (min x (2 ^ (W - 1) - 1)) := by
  have hpos : (0 : Int) < 2 ^ (W - 1) := by positivity
  rw [clamps]
  omega

theorem clamps_ne_iff (W : Nat) (x : Int) : clamps W x ≠ x ↔ x < -2 ^ (W - 1) ∨ 2 ^ (W - 1) - 1 < x := by
  have hpos : (0 : Int) < 2 ^ (W - 1) := by positivity
  rw [clamps_eq]
  omega

theorem saturateU_snd_iff (W : Nat) (x : Int) : (saturateU W x).2 = true ↔ x < 0 ∨ 2 ^ W - 1 < x := by
  rw [saturateU, decide_eq_true_iff, clampu_ne_iff]

theorem saturateS_fst (W : Nat) (x : Int) :
    (saturateS W x).1 = BitVec.ofInt W (max (-2 ^ (W - 1)) (min x (2 ^ (W - 1) - 1))) := by
  rw [saturateS, trunc, clamps_eq]

theorem saturateS_snd_iff (W : Nat) (x : Int) :
    (saturateS W x).2 = true ↔ x < -2 ^ (W - 1) ∨ 2 ^ (W - 1) - 1 < x := by
  rw [saturateS, decide_eq_true_iff, clamps_ne_iff]

/-- The upper bound of the unsigned range, as a natural number and as an integer (R280). -/
theorem natCast_two_pow_sub_one (W : Nat) : ((2 ^ W - 1 : Nat) : Int) = 2 ^ W - 1 := by
  rw [Nat.cast_pred (Nat.two_pow_pos W), Nat.cast_pow, Nat.cast_ofNat]

/-- A result that is clamped to a natural number has that number's pattern. -/
theorem saturateU_fst_of_clampu {W n : Nat} {x : Int} (h : clampu W x = n) : (saturateU W x).1 = BitVec.ofNat W n := by
  rw [saturateU, trunc, h, BitVec.ofInt_natCast]

/-! ## Saturating sums and differences (R282 to R285) -/

/-- `f` gives the results of `g`, and its flag is set exactly on the operands that satisfy `p`. -/
abbrev SaturatesAs (f : (W : Nat) → BitVec W → BitVec W → BitVec W × Bool)
    (g : (W : Nat) → BitVec W → BitVec W → BitVec W) (p : (W : Nat) → BitVec W → BitVec W → Prop) : Prop :=
  ∀ W (x y : BitVec W), (f W x y).1 = g W x y ∧ ((f W x y).2 = true ↔ p W x y)

/-- A row whose meaning is a saturating operation, its element function described by `g` and its flag by `p`. -/
theorem satOp_row {i : Instr} {a : Args} {op : BitVec 8} {form : BitVec 2}
    {f : (W : Nat) → BitVec W → BitVec W → BitVec W × Bool}
    {g : (W : Nat) → BitVec W → BitVec W → BitVec W} {p : (W : Nat) → BitVec W → BitVec W → Prop}
    (hop : i.fields.op = op) (hform : i.fields.form = form) (hx : ∀ s, exec i s = satOp f a s)
    (hfg : SaturatesAs f g p) : HasCode i op form ∧ PerformsSat i a g p :=
  ⟨hasCode_of_fields hop hform, (satOp_performs hx).congr fun W _ => hfg W⟩

/-- A sum of unsigned readings can leave the range only above it (R282). -/
theorem vsadduElem_eq (W : Nat) (a b : BitVec W) :
    (vsadduElem W a b).1 = BitVec.ofNat W (min (a.toNat + b.toNat) (2 ^ W - 1)) ∧
      ((vsadduElem W a b).2 = true ↔ 2 ^ W - 1 < a.toNat + b.toNat) := by
  have hbound := natCast_two_pow_sub_one W
  constructor
  case left =>
    apply saturateU_fst_of_clampu
    rw [clampu_eq, ← hbound, U, U]
    omega
  case right =>
    rw [vsadduElem, saturateU_snd_iff, ← hbound, U, U]
    omega

/-- A difference of unsigned readings can leave the range only below it, where it is clamped to the zero that the
difference of natural numbers gives (R284). -/
theorem vssubuElem_eq (W : Nat) (a b : BitVec W) :
    (vssubuElem W a b).1 = BitVec.ofNat W (a.toNat - b.toNat) ∧
      ((vssubuElem W a b).2 = true ↔ a.toNat < b.toNat) := by
  have ha := a.isLt
  have hbound := natCast_two_pow_sub_one W
  constructor
  case left =>
    apply saturateU_fst_of_clampu
    rw [clampu_eq, ← hbound, U, U]
    omega
  case right =>
    rw [vssubuElem, saturateU_snd_iff, ← hbound, U, U]
    omega

theorem vsaddElem_eq (W : Nat) (a b : BitVec W) :
    (vsaddElem W a b).1 = BitVec.ofInt W (max (-2 ^ (W - 1)) (min (a.toInt + b.toInt) (2 ^ (W - 1) - 1))) ∧
      ((vsaddElem W a b).2 = true ↔ a.toInt + b.toInt < -2 ^ (W - 1) ∨ 2 ^ (W - 1) - 1 < a.toInt + b.toInt) :=
  ⟨saturateS_fst W _, saturateS_snd_iff W _⟩

theorem vssubElem_eq (W : Nat) (a b : BitVec W) :
    (vssubElem W a b).1 = BitVec.ofInt W (max (-2 ^ (W - 1)) (min (a.toInt - b.toInt) (2 ^ (W - 1) - 1))) ∧
      ((vssubElem W a b).2 = true ↔ a.toInt - b.toInt < -2 ^ (W - 1) ∨ 2 ^ (W - 1) - 1 < a.toInt - b.toInt) :=
  ⟨saturateS_fst W _, saturateS_snd_iff W _⟩

/-- Settles O42: ten rows, each a saturating operation of one of the four element functions. -/
theorem saturatingResults : Obligations.SaturatingResults := by
  unfold Obligations.SaturatingResults
  intro addu adduSat add addSat subu subuSat sub subSat
  have haddu : SaturatesAs vsadduElem addu adduSat := vsadduElem_eq
  have hadd : SaturatesAs vsaddElem add addSat := vsaddElem_eq
  have hsubu : SaturatesAs vssubuElem subu subuSat := vssubuElem_eq
  have hsub : SaturatesAs vssubElem sub subSat := vssubElem_eq
  exact ⟨fun o => satOp_row rfl rfl (exec_vsadduVV o) haddu, fun o => satOp_row rfl rfl (exec_vsadduVX o) haddu,
    fun o => satOp_row rfl rfl (exec_vsadduVI o) haddu,
    fun o => satOp_row rfl rfl (exec_vsaddVV o) hadd, fun o => satOp_row rfl rfl (exec_vsaddVX o) hadd,
    fun o => satOp_row rfl rfl (exec_vsaddVI o) hadd,
    fun o => satOp_row rfl rfl (exec_vssubuVV o) hsubu, fun o => satOp_row rfl rfl (exec_vssubuVX o) hsubu,
    fun o => satOp_row rfl rfl (exec_vssubVV o) hsub, fun o => satOp_row rfl rfl (exec_vssubVX o) hsub⟩

end Sys2Proof.Machine

namespace Sys2Proof.Machine

/-! ## The codes of the STATUS port (R300, U19) -/

/-- The status a code of the STATUS port stands for; 7 stands for none (R300, U19). -/
def statusOfCode (c : BitVec 3) : Option Status :=
  match c.toNat with
  | 0 => some .noExcept
  | 1 => some .src1VecIll
  | 2 => some .src2VecIll
  | 3 => some .dstVecIll
  | 4 => some .wideningOverlapVdVs1Ill
  | 5 => some .wideningOverlapVdVs2Ill
  | 6 => some .narrowingOverlapVdVs2Ill
  | _ => none

/-- The code of a status is read back as that status. -/
theorem statusOfCode_statusCode (c : Status) : statusOfCode (statusCode c) = some c := by cases c <;> rfl

theorem statusCode_injective : Function.Injective statusCode := by
  intro c d h
  have hsome : some c = some d := by rw [← statusOfCode_statusCode c, h, statusOfCode_statusCode]
  exact Option.some.inj hsome

theorem statusCode_ne_seven (c : Status) : statusCode c ≠ 7 := by
  intro h
  have hread := statusOfCode_statusCode c
  rw [h] at hread
  cases hread

/-- Settles O15: the code 7 is read as no status, and each of the others as one. -/
theorem statusPortCodes : Obligations.StatusPortCodes :=
  ⟨rfl, rfl, rfl, rfl, rfl, rfl, rfl, statusCode_ne_seven, fun _ _ h => statusCode_injective h⟩

/-! ## The ends of a request, for every instruction (R303, R314) -/

section

variable {i : Instr} {s : State}

theorem exec_notAdmitted {e : CfgError} (h : cfgError (planOf i).cls (planOf i).cfg = some e) :
    exec i s = .refused (.notAdmitted e) := by
  obtain ⟨body, hx⟩ := exec_runRequest i s
  rw [hx, runRequest, h]

theorem exec_vectorLength (hc : cfgError (planOf i).cls (planOf i).cfg = none)
    (hv : vlmax s.params (planOf i).cfg < s.port.vl) : exec i s = .refused .vectorLength := by
  obtain ⟨body, hx⟩ := exec_runRequest i s
  rw [hx, runRequest, hc]
  exact if_pos hv

theorem exec_fails (ha : Admitted (planOf i) s) (hv : validate (planOf i) ≠ .noExcept) :
    exec i s = .next (s.raise (validate (planOf i))) := by
  obtain ⟨body, hx⟩ := exec_runRequest i s
  rw [hx, runRequest_fails ha hv]

theorem exec_hazardous {h : Hazard} (ha : Admitted (planOf i) s) (hv : validate (planOf i) = .noExcept)
    (hh : hazard (planOf i) = some h) : exec i s = .refused (.hazardous h) := by
  obtain ⟨body, hx⟩ := exec_runRequest i s
  obtain ⟨hc, hvl⟩ := ha
  simp only [hx, runRequest, hc, Nat.not_lt.mpr hvl, hv, hh, ne_eq, not_true_eq_false, if_false]

theorem exec_runs (hr : Runs (planOf i) s) : ∃ out, exec i s = .next (s.succeed out) := by
  obtain ⟨body, hx⟩ := exec_runRequest i s
  exact ⟨body s.vrf, by rw [hx, runRequest_runs hr]⟩

/-- A response other than `NO_EXCEPT` is the report of a failed validation, which is all the request has done (R303). -/
theorem exec_reported {t : State} {r : Response} (h : exec i s = .next t) (hr : t.response = some r)
    (hne : r.status ≠ .noExcept) :
    validate (planOf i) ≠ .noExcept ∧ r = ⟨validate (planOf i), false⟩ ∧ t = s.raise (validate (planOf i)) := by
  obtain ⟨body, hx⟩ := exec_runRequest i s
  obtain ⟨-, hv, rfl⟩ | ⟨-, rfl⟩ := runRequest_next (hx ▸ h)
  case inl =>
    rw [State.raise_response, Option.some.injEq] at hr
    exact ⟨hv, hr.symm, rfl⟩
  case inr =>
    rw [State.succeed_response, Option.some.injEq] at hr
    subst hr
    exact absurd rfl hne

end

/-- Settles O17. -/
theorem failingRequestChangesOnlyTheResponse : Obligations.FailingRequestChangesOnlyTheResponse := by
  unfold Obligations.FailingRequestChangesOnlyTheResponse
  refine fun i s => ⟨exec_fails, fun t r h hr hne => ?_⟩
  obtain ⟨-, rfl, rfl⟩ := exec_reported h hr hne
  exact ⟨rfl, rfl⟩

/-- Settles O18: one lemma per end of a request. -/
theorem requestsFollowTheProtocol : Obligations.RequestsFollowTheProtocol := by
  unfold Obligations.RequestsFollowTheProtocol
  refine fun i s => ⟨fun e => exec_notAdmitted, exec_vectorLength, exec_fails, fun h => exec_hazardous, fun hr => ?_⟩
  obtain ⟨out, hx⟩ := exec_runs hr
  exact ⟨out.1, out.2, hx⟩

end Sys2Proof.Machine

namespace Sys2Proof

open Machine

/-! ## The status as a function of the descriptor's fields (R102, R302) -/

/-- The validation class of an operation id: the class column of R80. An id that R80 does not list has no class; it
stands under `same` here. -/
def classOfOp (op : Nat) : VClass :=
  match op with
  | 0x10 | 0x13 => .ext .vf2
  | 0x11 | 0x14 => .ext .vf4
  | 0x12 | 0x15 => .ext .vf8
  | 0x18 | 0x19 | 0x1A | 0x1B | 0x38 | 0x39 | 0x3A | 0x44 | 0x45 | 0x46 | 0x47 => .widen
  | 0x1C | 0x1D => .narrow
  | 0x20 | 0x21 | 0x22 | 0x23 | 0x24 | 0x25 | 0x26 | 0x27 | 0x28 | 0x29 | 0x52 | 0x53 => .maskDst
  | 0x61 => .move
  | 0x68 | 0x69 | 0x6A | 0x6B => .slide
  | _ => .same

/-- The `vs1` register of a descriptor: form V has one, but not in an extension (R70, R102). -/
def Fields.vs1Reg (f : Fields) : Option VReg :=
  match classOfOp f.op.toNat, f.form.toNat with
  | .ext _, _ => none
  | _, 0 => some (regOfField f.vs1)
  | _, _ => none

/-- The `vs2` register of a descriptor: every operation has one but the moves (R70, R102). -/
def Fields.vs2Reg (f : Fields) : Option VReg :=
  match classOfOp f.op.toNat with
  | .move => none
  | _ => some (regOfField f.vs2)

/-- What validation looks at in a descriptor: `me` and `vxrm` are not in it (R302). -/
def Fields.checked (f : Fields) : Plan :=
  ⟨classOfOp f.op.toNat, regOfField f.vd, f.vs1Reg, f.vs2Reg, { f.cfg with vxrm := .rnu }, false, false⟩

namespace Machine

/-- What validation looks at in a plan: not whether `v0` is read, the direction of a slide or the rounding mode. -/
def Plan.checked (p : Plan) : Plan :=
  { p with cfg := { p.cfg with vxrm := .rnu }, readsV0 := false, slideUp := false }

theorem validate_checked (p : Plan) : validate p.checked = validate p := rfl

/-! The plan of an instruction, row by row, against its descriptor (R80, R102). -/

theorem classOfOp_fields (i : Instr) : classOfOp i.fields.op.toNat = (planOf i).cls := by
  cases i
  all_goals rfl

theorem regOfField_vd_fields (i : Instr) : regOfField i.fields.vd = (planOf i).vd := by
  cases i
  all_goals rfl

theorem vs1Reg_fields (i : Instr) : i.fields.vs1Reg = (planOf i).vs1 := by
  cases i
  all_goals rfl

theorem vs2Reg_fields (i : Instr) : i.fields.vs2Reg = (planOf i).vs2 := by
  cases i
  all_goals rfl

theorem checked_fields (i : Instr) : i.fields.checked = (planOf i).checked := by
  rw [Fields.checked, classOfOp_fields, regOfField_vd_fields, vs1Reg_fields, vs2Reg_fields, fields_cfg_eq_planOf_cfg,
    Plan.checked]

/-- The status of an instruction that the decoder gives is a function of what its descriptor has for validation (R302). -/
theorem validate_of_decodeFields {f : Fields} {i : Instr} (h : decodeFields f = .ok i) :
    validate (planOf i) = validate f.checked := by
  have hfields : i.fields = f := (decodeFields_reading f).fields_eq h
  rw [← hfields, checked_fields, validate_checked]

/-- Settles O16: descriptors that differ in `me` and `vxrm` have the same for validation, and a failing request's status
is the one that validation finds in its plan, where there is no state. -/
theorem statusDoesNotDependOnData : Obligations.StatusDoesNotDependOnData := by
  unfold Obligations.StatusDoesNotDependOnData
  refine ⟨fun f me vxrm i j hi hj => ?descriptors, fun i s s' t r _ ha' h hr hne => ?states⟩
  case descriptors =>
    have hsame : ({ f with me := me, vxrm := vxrm } : Fields).checked = f.checked := rfl
    rw [validate_of_decodeFields hi, validate_of_decodeFields hj, hsame]
  case states =>
    obtain ⟨hv, rfl, -⟩ := exec_reported h hr hne
    exact exec_fails ha' hv

end Machine

end Sys2Proof

namespace Sys2Proof.Machine

/-! ## The three hazards (R336 to R339) -/

theorem hazard_ne_none_iff (p : Plan) : hazard p ≠ none ↔
    (p.cls ≠ .maskDst ∧ p.readsV0 = true ∧ p.vd = 0) ∨ (p.slideUp = true ∧ p.vs2 = some p.vd) ∨
      maskInsideSource p = true := by
  have hv0 : p.vd.val = 0 ↔ p.vd = 0 := Fin.val_eq_zero_iff
  simp only [hazard, hv0]
  split_ifs with h1 h2 h3
  · exact iff_of_true nofun (.inl h1)
  · exact iff_of_true nofun (.inr (.inl h2))
  · exact iff_of_true nofun (.inr (.inr h3))
  · exact iff_of_false (not_not.mpr rfl) (not_or.mpr ⟨h1, not_or.mpr ⟨h2, h3⟩⟩)

/-- A request that writes elements is not in the third case (R339). -/
theorem hazard_ne_none_iff_of_elements {p : Plan} (h : p.cls ≠ .maskDst) :
    hazard p ≠ none ↔ (p.readsV0 = true ∧ p.vd = 0) ∨ (p.slideUp = true ∧ p.vs2 = some p.vd) := by
  have hmask : maskInsideSource p = false := by rw [maskInsideSource, decide_eq_false h, Bool.false_and]
  simp only [hazard_ne_none_iff, h, hmask, ne_eq, not_false_eq_true, true_and, Bool.false_eq_true, or_false]

/-- A request that writes elements and is no slide-up is in the first case or in none (R337). -/
theorem hazard_ne_none_iff_v0 {p : Plan} (h : p.cls ≠ .maskDst) (hup : p.slideUp = false) :
    hazard p ≠ none ↔ p.readsV0 = true ∧ p.vd = 0 := by
  simp only [hazard_ne_none_iff_of_elements h, hup, Bool.false_eq_true, false_and, or_false]

theorem hazard_movePlan (a : MoveArgs) : hazard (movePlan a) = none := by
  have hreads : (movePlan a).readsV0 ≠ true := nofun
  by_contra hne
  obtain ⟨hr, -⟩ := (hazard_ne_none_iff_v0 (p := movePlan a) nofun rfl).mp hne
  exact hreads hr

theorem hazard_slidePlan_ne_none_iff (up : Bool) (a : Args) :
    hazard (slidePlan up a) ≠ none ↔ a.me = true ∧ a.vd = 0 ∨ up = true ∧ a.vd = a.vs2 := by
  have hsource : (slidePlan up a).vs2 = some a.vd ↔ a.vd = a.vs2 := Option.some_inj.trans eq_comm
  rw [hazard_ne_none_iff_of_elements (p := slidePlan up a) nofun]
  exact or_congr_right (and_congr_right fun _ => hsource)

/-- From two registers on, an admitted multiplicity is a whole number, that of its registers (R47, R49). -/
theorem den_eq_one_of_two_le {m : Mult} (hm : m ∈ admittedPairs) (h : 2 * m.den ≤ m.num) :
    m.den = 1 ∧ m.nreg = m.num := by
  have hall : ∀ m ∈ admittedPairs, 2 * m.den ≤ m.num → m.den = 1 ∧ m.nreg = m.num := by decide
  exact hall m hm h

/-- `vs < vd < vs + LMUL`, with `LMUL` as a fraction (R339). -/
theorem insideGroup_iff {m : Mult} (hm : m ∈ admittedPairs) (h : 2 * m.den ≤ m.num) (vd vs : VReg) :
    insideGroup vd vs m = true ↔ vs.val < vd.val ∧ vd.val * m.den < vs.val * m.den + m.num := by
  obtain ⟨hden, hnreg⟩ := den_eq_one_of_two_le hm h
  rw [insideGroup, hnreg, hden, Nat.mul_one, Nat.mul_one, Bool.and_eq_true, decide_eq_true_eq, decide_eq_true_eq]

/-- A mask-producing request is in the third case or in none: it writes a mask bit, not an element (R337, R339). -/
theorem hazard_maskDst_ne_none_iff (a : Args) : hazard (maskedPlan .maskDst a) ≠ none ↔
    2 * (lmul a.cfg).den ≤ (lmul a.cfg).num ∧
      (insideGroup a.vd a.vs2 (lmul a.cfg) = true ∨
        ∃ v, a.rhs = .vec v ∧ insideGroup a.vd v (lmul a.cfg) = true) := by
  simp only [hazard_ne_none_iff, maskInsideSource, maskedPlan, ne_eq, not_true_eq_false, false_and, Bool.false_eq_true,
    false_or, decide_true, Bool.true_and, Bool.and_eq_true, decide_eq_true_eq, List.any_append, Bool.or_eq_true,
    List.any_eq_true, Option.mem_toList, Option.some.injEq, exists_eq_left', Rhs.reg_eq_some_iff]

/-- Settles O20: the plan of each kind of request says which of the three cases it can be in. -/
theorem hazardsAreTheThreeUncheckedOverlaps : Obligations.HazardsAreTheThreeUncheckedOverlaps := by
  unfold Obligations.HazardsAreTheThreeUncheckedOverlaps
  refine ⟨fun k a hk => hazard_ne_none_iff_v0 (p := maskedPlan k a) hk rfl,
    fun k o => hazard_ne_none_iff_v0 (p := extPlan k o) nofun rfl,
    fun a => (hazard_ne_none_iff_v0 (p := carryPlan a) nofun rfl).trans (and_iff_right rfl),
    hazard_movePlan, hazard_slidePlan_ne_none_iff, fun a hc => ?_⟩
  intro num den within
  rw [hazard_maskDst_ne_none_iff]
  refine and_congr_right fun hle => ?_
  have hinside : ∀ v, insideGroup a.vd v (lmul a.cfg) = true ↔ within v := insideGroup_iff (lmul_admitted hc) hle a.vd
  simp only [hinside]

end Sys2Proof.Machine

namespace Sys2Proof.Machine

/-! ## The reset input (R330, R331, U17) -/

/-- Settles O53. -/
theorem resetInputKeepsTheRegisterFile : Obligations.ResetInputKeepsTheRegisterFile :=
  fun _ _ h => ⟨_, step_action h, rfl, rfl, rfl, rfl⟩

theorem step_abandoned {s : State} {r : Request} {rest : List HostInput} (h : s.inputs = .abandoned r :: rest) :
    step s = takeAbandoned { s with port := r, inputs := rest } :=
  step_action h

section

variable {s : State} {i : Instr}

theorem takeAbandoned_runs (hd : decode s.port.req = .ok i) (hr : Runs (planOf i) s) :
    takeAbandoned s = .next (abandonGroup (planOf i) s).resetBlock := by
  obtain ⟨out, hx⟩ := exec_runs hr
  obtain ⟨-, hv, -⟩ := hr
  simp only [takeAbandoned, hd, hx, hv, if_true]

theorem takeAbandoned_fails (hd : decode s.port.req = .ok i) (ha : Admitted (planOf i) s)
    (hv : validate (planOf i) ≠ .noExcept) : takeAbandoned s = .next s.resetBlock := by
  simp only [takeAbandoned, hd, exec_fails ha hv, hv, if_false]

end

/-- The bytes of an abandoned request's destination group are free, every other byte is as before (R331, U17). -/
theorem read_abandonGroup {p : Plan} {s : State} (hs : s.inv) (x : Nat) :
    Memory.read (abandonGroup p s).vrf x =
      if InDestination p s.params.vlenb x then Config.abandonedByte s.freeCount x else Memory.read s.vrf x := by
  rw [abandonGroup_vrf, read_scramble _ _ _ hs.1, ← Nat.add_mul]

/-- Settles O55: whether the request would have been carried out or would have failed, the step's next state is known in
full. -/
theorem abandonedRequestLeavesOtherRegisters : Obligations.AbandonedRequestLeavesOtherRegisters := by
  unfold Obligations.AbandonedRequestLeavesOtherRegisters
  intro s r rest i hs hin hd
  rw [step_abandoned hin]
  constructor
  case left =>
    intro hr
    exact ⟨_, takeAbandoned_runs (s := { s with port := r, inputs := rest }) hd hr, rfl,
      read_abandonGroup (s := { s with port := r, inputs := rest }) hs⟩
  case right =>
    intro ha hv
    exact takeAbandoned_fails (s := { s with port := r, inputs := rest }) hd ha hv

end Sys2Proof.Machine
